-- ==== Sys2Proof/Word.lean ====
section
/-! DEFINITION. The widths the manual treats as words. -/

namespace Sys2Proof

/-- One byte of a telegram payload (R2, R192). -/
abbrev Byte := BitVec 8

/-- A 32-bit register of the part: serials, move ids, the announce sequence, position counts. -/
abbrev Word32 := BitVec 32

end Sys2Proof
end

