-- ==== Sys2Proof/Config.lean ====
section
/-! DEFINITION. Constants that the manual fixes for every BK-440, and the free values: results
the manual leaves unstated, about which nothing can be proved. -/

namespace Sys2Proof.Config

/-- Base clocks in one millisecond: the base clock is 50 MHz (00_scope.md, Time). -/
def clocksPerMs : Nat := 50000

/-- The slew tick's length and tick duration, 1 ms (R49). -/
def slewTickClocks : Nat := 50000

/-- The quiet time that closes the roster, 300 ms (R22), and the age at which a report is no
longer fresh (R29). -/
def quietClocks : Nat := 15000000

/-- The report timer's expiry, 100 ms (R113). -/
def reportClocks : Nat := 5000000

/-- The mark-quiet time that lets the clock enter LOCAL, 3 s (R44). -/
def markQuietClocks : Nat := 150000000

/-- The shortest lockable period, 500 fps (R36, R37). -/
def minPeriod : Nat := 100000

/-- The longest lockable period, 1 fps (R36, R37). -/
def maxPeriod : Nat := 50000000

/-- The top of the roll count, where it is held (R45). -/
def rollTop : Nat := 1048575

/-- The F of a generic HALT, FFFFFFh (R192). -/
def genericF : Nat := 16777215

/-- The position of the step range, 8,388,607 steps either way (R52, R98, R136). -/
def stepBound : Int := 8388607

/-- The recessive bits in a row that WAIT_QUIET counts toward IDLE (R4). -/
def quietBits : Nat := 11

/-- The dominant bits in a row that make LINE_STUCK live (R9). -/
def stuckBits : Nat := 32

/-- The recessive bits of an end field (R2). -/
def endBits : Nat := 8

/-- The recessive bits of INTERMISSION (R4). -/
def intermissionBits : Nat := 3

/-- Roster capacity (R21). -/
def rosterCapacity : Nat := 24

/-- Transmit queue capacity (R12). -/
def txCapacity : Nat := 8

/-- Request queue capacity (R16). -/
def requestCapacity : Nat := 4

/-- Key pool slots (R57). -/
def poolSlots : Nat := 4096

/-- Pass frames a capture buffer holds (chapter 9.1). -/
def bufferFrames : Nat := 8192

/-- Deviation list capacity (R159). -/
def deviationCapacity : Nat := 64

/-- Pass history capacity (R163). -/
def historyCapacity : Nat := 8

/-- Base clocks of one analog scan (R181). -/
def scanClocks : Nat := 6000

/-- Base clocks of one PWM period (R167). -/
def pwmClocks : Nat := 2048

/-- FREE VALUE. The key index that the arithmetic exception record takes when the exception
arises beyond a track's last key, where there is no segment whose first key R83 could name
(assumption 20). Applied to `State.free`. -/
opaque freeKeyIndex : Nat → BitVec 16

/-- FREE VALUE. A byte of the STATUS part EXCEPTION that R196 lays out for a record that is not
written (assumption 21). Applied to `State.free` plus the byte's place. -/
opaque freeByte : Nat → Byte

end Sys2Proof.Config
end

