-- ==== Sys2Proof/Syntax.lean ====
section
/-! DEFINITION. The commands of the block: one constructor per row of spec/opcode_table.json.

The BK-440 takes its commands from the rig line, from its pins, from its own timers and from its
own request dispatcher. Three conventions hold throughout (assumptions 1 to 4):

* an event that comes from OUTSIDE (a telegram, a line event, an edge on a pin) carries `t`, its
  instant in base clocks since the reset. Executing it first brings the base time up to `t`;
* an event whose instant the part itself fixes (a tick, a deadline, a timer) carries no instant:
  executing it brings the base time up to the instant the rules give it;
* a REQUEST reaches its handler through the request queue (`requestArrival` puts it there), so a
  handler's command carries no operands: it is the dispatcher's hand-over of the queue's head.
-/

namespace Sys2Proof

/-- The LINE_RATE strap (R1). -/
inductive LineRate where
  | mbit1 | mbit2
  deriving DecidableEq, Repr

/-- The two limit inputs of an axis. -/
inductive LimitEnd where
  | min | max
  deriving DecidableEq, Repr

/-- The six results of one analog scan, in scan order (R181). -/
structure ScanReadings where
  lampA : BitVec 10
  lampB : BitVec 10
  rigSupply : BitVec 10
  temp : BitVec 10
  refHigh : BitVec 10
  refLow : BitVec 10
  deriving DecidableEq, Repr

/-- A command of the block: one constructor per row of spec/opcode_table.json. -/
inductive Instr where
  /-- POWER_ON_RESET (R18): supply applied; the straps as read. -/
  | powerOnReset (rate : LineRate) (participant : Bool)
  /-- PIN_RESET (R18): the RESET pin; the straps as read. -/
  | pinReset (rate : LineRate) (participant : Bool)
  /-- QUIET_COUNT_REACHED (R4): the 11th consecutive recessive bit in WAIT_QUIET. -/
  | quietCountReached (t : Nat)
  /-- INTERMISSION_END (R4): the third recessive bit of INTERMISSION. -/
  | intermissionEnd (t : Nat)
  /-- LINE_STUCK (R9): the dominant-run count reaches 32. -/
  | lineStuck (t : Nat)
  /-- TRANSMIT_START (R4): the interface begins a start bit of its own. -/
  | transmitStart (t : Nat)
  /-- ARBITRATION_LOST (R5). -/
  | arbitrationLost (t : Nat)
  /-- CLASH (R6). -/
  | clash (t : Nat)
  /-- TRANSMIT_COMPLETE (R12): the own end field completes without mismatch. -/
  | transmitComplete (t : Nat)
  /-- FORM_ERROR (R8). -/
  | formError (t : Nat)
  /-- CHECK_ERROR (R8). -/
  | checkError (t : Nat)
  /-- UNDEFINED_CLASS (R8): a well-checked telegram of class 7 or an undefined kind. -/
  | undefinedClass (t : Nat)
  /-- STATION_RESET_FLUSH (R15): the STATION_RESET reply has left the queue. -/
  | stationResetFlush
  /-- ROSTER_REOPENING (R27): the ROSTER_REOPEN DONE reply has left the queue. -/
  | rosterReopening
  /-- REQUEST_ARRIVAL (R16): a well-formed REQUEST arrives. -/
  | requestArrival (t : Nat) (station : BitVec 5) (kind : BitVec 4) (payload : List Byte)
  /-- DISPATCH_UNKNOWN (R17): the dispatcher takes a head of undefined length. -/
  | dispatchUnknown
  /-- DISPATCH_BUSY (R65): the dispatcher takes the head while the store is VALIDATING. -/
  | dispatchBusy
  /-- ANNOUNCE_DELAY_EXPIRY (R20). -/
  | announceDelayExpiry
  /-- ANNOUNCE (R21): a received ANNOUNCE. -/
  | announce (t : Nat) (station : BitVec 5) (payload : List Byte)
  /-- ROSTER_CLOSING (R22). -/
  | rosterClosing
  /-- DIGEST (R24): a received DIGEST. -/
  | digest (t : Nat) (station : BitVec 5) (payload : List Byte)
  /-- REPORT (R28): a received REPORT. -/
  | report (t : Nat) (station : BitVec 5) (payload : List Byte)
  /-- REAL_MARK (R33): a rising edge of SHUTTER, with the level of ROLL at it. -/
  | realMark (t : Nat) (roll : Bool)
  /-- SHUTTER_FALL (R50): a falling edge of SHUTTER. -/
  | shutterFall (t : Nat)
  /-- HOLDOVER_DEADLINE (R40). -/
  | holdoverDeadline
  /-- COASTING_MARK (R43). -/
  | coastingMark
  /-- LOCAL_ENTRY (R44). -/
  | localEntry
  /-- LOCAL_MARK (R44). -/
  | localMark
  /-- ACQUIRE_TIMEOUT (R37). -/
  | acquireTimeout
  /-- PASS_TICK (R46): the next paced pass tick of the current camera frame. -/
  | passTick
  /-- SLEW_TICK (R49). -/
  | slewTick
  /-- REPORT_TIMER_EXPIRY (R113). -/
  | reportTimerExpiry
  /-- START (R103): a received START. -/
  | start (t : Nat) (station : BitVec 5) (payload : List Byte)
  /-- DECLINE (R105): a received DECLINE. -/
  | decline (t : Nat) (station : BitVec 5) (payload : List Byte)
  /-- HALT (R120): a received HALT that names a pass. -/
  | halt (t : Nat) (station : BitVec 5) (payload : List Byte)
  /-- GENERIC_HALT (R122): a received HALT whose F is FFFFFFh. -/
  | genericHalt (t : Nat) (station : BitVec 5) (payload : List Byte)
  /-- AXIS_SETUP (R62): a received chunk. -/
  | axisSetup (t : Nat) (station : BitVec 5) (payload : List Byte)
  /-- LEVEL_SETUP (R62): a received chunk. -/
  | levelSetup (t : Nat) (station : BitVec 5) (payload : List Byte)
  /-- CUE_SETUP (R62): a received chunk. -/
  | cueSetup (t : Nat) (station : BitVec 5) (payload : List Byte)
  /-- KEYS (R63): a received chunk. -/
  | keys (t : Nat) (station : BitVec 5) (payload : List Byte)
  /-- LEVEL_KEYS (R63): a received chunk. -/
  | levelKeys (t : Nat) (station : BitVec 5) (payload : List Byte)
  /-- CUES (R63): a received chunk. -/
  | cues (t : Nat) (station : BitVec 5) (payload : List Byte)
  /-- STATUS (R189), handed over from the request queue, as are the requests below. -/
  | status
  /-- CLEAR_FAULT (R130). -/
  | clearFault
  /-- CUE (R96). -/
  | cue
  /-- SEEK (R97). -/
  | seek
  /-- JOG (R98). -/
  | jog
  /-- RETURN (R99). -/
  | returnPath
  /-- BEGIN_LOAD (R58). -/
  | beginLoad
  /-- COMMIT_LOAD (R65). -/
  | commitLoad
  /-- VALIDATION_END (R66): validation's duration has elapsed. -/
  | validationEnd
  /-- SET_CHANNEL_AXIS (R149): a SET_CHANNEL of length 9. -/
  | setChannelAxis
  /-- SET_CHANNEL_STATION (R186): a SET_CHANNEL of length 12. -/
  | setChannelStation
  /-- SET_DISPOSITION (R116). -/
  | setDisposition
  /-- SET_REFERENCE (R164). -/
  | setReference
  /-- READ_PASS (R165). -/
  | readPass
  /-- READ_DEVIATIONS (R166). -/
  | readDeviations
  /-- SET_LEVEL (R174). -/
  | setLevel
  /-- STATION_RESET (R191). -/
  | stationReset
  /-- ROSTER_REOPEN (R26). -/
  | rosterReopen
  /-- STEP_LEADING_EDGE (R138): the next leading edge of an axis's plan. -/
  | stepLeadingEdge (axis : Fin 4)
  /-- STEP_TRAILING_EDGE (R133): one pulse width after it. -/
  | stepTrailingEdge (axis : Fin 4)
  /-- ENCODER_CHANGE (R144): a sample at which A or B differs; the new levels. -/
  | encoderChange (t : Nat) (axis : Fin 4) (a b : Bool)
  /-- LIMIT_INPUT_FALLING (R141). -/
  | limitInputFalling (t : Nat) (axis : Fin 4) (side : LimitEnd)
  /-- LIMIT_INPUT_RISING (R184). -/
  | limitInputRising (t : Nat) (axis : Fin 4) (side : LimitEnd)
  /-- DRIVE_FAULT_INPUT_FALLING (R142). -/
  | driveFaultInputFalling (t : Nat) (axis : Fin 4)
  /-- DRIVE_FAULT_INPUT_RISING (R184). -/
  | driveFaultInputRising (t : Nat) (axis : Fin 4)
  /-- ESTOP_FALLING (R184). -/
  | estopFalling (t : Nat)
  /-- ESTOP_RISING (R184). -/
  | estopRising (t : Nat)
  /-- SCAN_COMPLETE (R181): the end of a scan, with its six results. -/
  | scanComplete (readings : ScanReadings)
  /-- PWM_PERIOD_BOUNDARY (R168). -/
  | pwmPeriodBoundary
  /-- START_BIT (R4): a dominant bit in IDLE that the interface did not send. -/
  | startBit (t : Nat)
  /-- REPLY (R11): a well-formed REPLY of another station. -/
  | reply (t : Nat) (station : BitVec 5) (kind : BitVec 4) (payload : List Byte)
  deriving DecidableEq, Repr

end Sys2Proof
end

