-- ==== Sys2Proof/WellFormed.lean ====
section
/-! DEFINITION. Which commands are well formed: the payload bound of R2 and the split of R192
between a HALT that names a pass and a generic HALT. -/

namespace Sys2Proof

/-- R2: a payload holds 0 to 24 bytes. -/
def payloadFits (p : List Byte) : Bool := p.length ≤ 24

/-- R192: the first three payload bytes of a HALT are FFFFFFh, the generic mark. -/
def genericMark (p : List Byte) : Bool := p.take 3 == [255#8, 255#8, 255#8]

/-- A command that the part can be given. -/
def Instr.wellFormed : Instr → Bool
  | .requestArrival _ _ _ p | .reply _ _ _ p => payloadFits p
  | .announce _ _ p | .digest _ _ p | .report _ _ p | .start _ _ p | .decline _ _ p => payloadFits p
  | .axisSetup _ _ p | .levelSetup _ _ p | .cueSetup _ _ p => payloadFits p
  | .keys _ _ p | .levelKeys _ _ p | .cues _ _ p => payloadFits p
  | .halt _ _ p => payloadFits p && !genericMark p
  | .genericHalt _ _ p => payloadFits p && genericMark p
  | .powerOnReset .. | .pinReset .. | .quietCountReached .. | .intermissionEnd .. => true
  | .lineStuck .. | .transmitStart .. | .arbitrationLost .. | .clash .. => true
  | .transmitComplete .. | .formError .. | .checkError .. | .undefinedClass .. => true
  | .stationResetFlush | .rosterReopening | .dispatchUnknown | .dispatchBusy => true
  | .announceDelayExpiry | .rosterClosing | .realMark .. | .shutterFall .. => true
  | .holdoverDeadline | .coastingMark | .localEntry | .localMark | .acquireTimeout => true
  | .passTick | .slewTick | .reportTimerExpiry => true
  | .status | .clearFault | .cue | .seek | .jog | .returnPath | .beginLoad | .commitLoad => true
  | .validationEnd | .setChannelAxis | .setChannelStation | .setDisposition => true
  | .setReference | .readPass | .readDeviations | .setLevel | .stationReset => true
  | .rosterReopen | .stepLeadingEdge .. | .stepTrailingEdge .. | .encoderChange .. => true
  | .limitInputFalling .. | .limitInputRising .. | .driveFaultInputFalling .. => true
  | .driveFaultInputRising .. | .estopFalling .. | .estopRising .. | .scanComplete .. => true
  | .pwmPeriodBoundary | .startBit .. => true

end Sys2Proof
end

