-- ==== Sys2Proof/Decode.lean ====
section
/-! DEFINITION. The command that a word of the table's bits spells. No row of
spec/opcode_table.json gives bits (every "fields" list is empty and no row has "fixed"), so no
word spells a command. The bits of telegrams, which DO carry commands over the rig line, are
decoded in Machine/Coding.lean (R2, R3, R8) and Machine/Operands.lean (R192 to R196). -/

namespace Sys2Proof

/-- The command that the `nbits`-bit word `w` spells by the table's bits: none, since the table
gives no row any bits. -/
def decodeTableWord (_nbits _w : Nat) : Option Instr := none

end Sys2Proof
end

