-- ==== Sys2Proof/Machine/State.lean ====
section
/-! DEFINITION. The state of one BK-440 as plain data, the reasons a step can stop, and the state
after reset. Each structure is one block of the part (00_scope.md, Block overview); INVENTORY.md
lists every field with the rule that names it. -/

namespace Sys2Proof.Machine

/-! ## Codes and enumerations (R192 gives their order) -/

/-- The node state (R89), in the order of R192. -/
inductive NodeState where
  | settling | excluded | idle | loading | slewing | armed | pending | running | halting
  | halted | ended | returning | stopped
  deriving DecidableEq, Repr

/-- The frame clock's state (3.3). `localMarks` is the manual's LOCAL. -/
inductive ClockState where
  | free | acquiring | locked | holdover | coasting | localMarks
  deriving DecidableEq, Repr

/-- How the current frame's timing base was set (3.2). `localMark` is the manual's LOCAL. -/
inductive FrameOrigin where
  | real | synthesized | absorbed | localMark
  deriving DecidableEq, Repr

/-- The eighteen causes (R115), in the order of R192. -/
inductive Cause where
  | estop | driveFault | limitSwitch | markLost | frameSlip | peerAbsent | peerDeclined
  | peerHalted | remoteHalt | lineFault | followingError | softLimitClamp | supplyUv
  | stepDeficit | arithOverflow | grossDeviation | tempHigh | adcFault
  deriving DecidableEq, Repr

/-- A cause's disposition (R115). -/
inductive Disposition where
  | stopNow | haltRig | warn
  deriving DecidableEq, Repr

/-- The six latched flags that are not causes (R187), in the order of R196. -/
inductive Note where
  | lockedEvent | unlock | haltLate | disarmed | truncated | loadStray
  deriving DecidableEq, Repr

/-- The eleven counters of R188, in its order. -/
inductive Counter where
  | missedMarks | spuriousMarks | formErrors | checkErrors | unknownClass | clashes | txDrops
  | requestOverruns | misaligned | strayLoads | strayStarts
  deriving DecidableEq, Repr

/-- The reset cause (R188). -/
inductive ResetCause where
  | none | powerOn | pin | stationReset
  deriving DecidableEq, Repr

/-- A list of the move store (4.1): the six tracks, the cue list, or NONE. -/
inductive ListName where
  | track (i : Fin 6) | cues | none
  deriving DecidableEq, Repr

/-- Rounding mode of the move (00_scope.md, Rounding). -/
inductive RoundMode where
  | nearest | chop
  deriving DecidableEq, Repr

/-- The occasion of an evaluation that raises (R73). -/
inductive Occasion where
  | pass | slew | request
  deriving DecidableEq, Repr

/-- The code of an arithmetic exception (R79, R80). -/
inductive ExceptionCode where
  | overflowEval | overflowScale
  deriving DecidableEq, Repr

/-! ## Line interface (chapter 1) -/

/-- The five interface states (1.2). -/
inductive LineState where
  | waitQuiet | idle | receiving | transmitting | intermission
  deriving DecidableEq, Repr

/-- The block that queued a telegram, and what its outcome governs (R15). -/
inductive TxOwner where
  /-- The engine's HALT for a pass; `current` while that pass's halt record is the one held. -/
  | halt (current : Bool)
  | genericHalt | decline | report | announce | digest
  /-- The DONE reply to a STATION_RESET; `awaited` while its leaving brings the flush (R15). -/
  | stationResetReply (awaited : Bool)
  /-- The DONE reply to a ROSTER_REOPEN, whose leaving brings the reopening (R27). -/
  | rosterReopenReply
  /-- The REFUSED(TRACK_DISABLED) reply to a BEGIN_LOAD, naming the first such track (R58). R194's
  layout has no byte for the name, so it stands beside the telegram (assumption 19). -/
  | trackReply (track : Fin 6)
  | reply
  deriving DecidableEq, Repr

/-- An entry of the transmit queue: one whole telegram and the block that queued it (1.6). -/
structure TxEntry where
  cls : BitVec 3
  station : BitVec 5
  kind : BitVec 4
  payload : List Byte
  owner : TxOwner
  /-- The entry of the attempt now on the line. -/
  sending : Bool
  /-- Marked for cancellation while in transmission (R14). -/
  cancelled : Bool
  /-- An emptying fell while it was in transmission: it leaves FLUSHED if it loses (R15). -/
  flushing : Bool
  deriving DecidableEq, Repr

/-- A request taken by R11, waiting for the dispatcher (1.7). -/
structure RequestRecord where
  requester : BitVec 5
  kind : BitVec 4
  target : Byte
  body : List Byte
  deriving DecidableEq, Repr

/-- The line interface (R18). -/
structure LineInterface where
  rate : LineRate
  state : LineState
  /-- The level the output is set to, as of the last bit a command told of (R1, R18). -/
  outputDominant : Bool
  quietCount : Nat
  dominantRun : Nat
  txQueue : List TxEntry
  requestQueue : List RequestRecord
  clashRun : Nat
  txOff : Bool
  lineStuck : Bool
  /-- A STATION_RESET reply has left the queue and the emptying of R15 is due. -/
  flushDue : Bool
  /-- A ROSTER_REOPEN reply has left the queue and the reopening of R27 is due. -/
  reopenDue : Bool
  deriving DecidableEq, Repr

/-! ## Roster (chapter 2) -/

/-- One roster entry (2.1). Its station number is its place in the table. -/
structure RosterEntry where
  serial : Word32
  rank : BitVec 3
  participant : Bool
  /-- The state code of the last REPORT; none is UNKNOWN. -/
  lastState : Option (BitVec 4)
  /-- The arrival instant of the last REPORT; none before the first one (assumption 38). -/
  lastReport : Option Nat
  missingRun : Nat
  misalignedRun : Nat
  watched : Bool
  /-- A REPORT has arrived since the last missing-report check (R32). -/
  heard : Bool
  deriving DecidableEq, Repr

inductive RosterPhase where
  | settling | closed
  deriving DecidableEq, Repr

/-- Where the announce schedule of R20 stands. -/
inductive AnnounceSchedule where
  /-- The first delay begins when the interface next enters IDLE. -/
  | awaitIdle
  /-- A delay runs until this instant. -/
  | delay (due : Nat)
  /-- An ANNOUNCE is offered and its outcome awaited. -/
  | offered
  /-- No further offer is made. -/
  | done
  deriving DecidableEq, Repr

/-- The roster (2.1). -/
structure Roster where
  table : List RosterEntry
  phase : RosterPhase
  /-- The own entry's place; none is BEYOND. -/
  ownPosition : Option Nat
  beyondCount : Nat
  mismatch : Bool
  resume : NodeState
  announceSeq : Word32
  announceCount : Nat
  /-- The instant of the quiet timer's last restart (R22). -/
  quietStart : Nat
  schedule : AnnounceSchedule
  deriving DecidableEq, Repr

/-! ## Frame clock (chapter 3) -/

/-- The frame clock (3.2). -/
structure FrameClock where
  state : ClockState
  period : Option Nat
  previousPeriod : Option Nat
  consistentRun : Nat
  measuringBase : Option Nat
  timingBase : Option Nat
  origin : FrameOrigin
  missedRun : Nat
  tickIndex : Option Nat
  roll : Nat
  closePending : Bool
  /-- The instant of the last real mark, or of the reset: mark-quiet time counts from it. -/
  lastMark : Nat
  /-- The instant of the last slew tick, or of the reset: the slew phase counts from it. -/
  slewStart : Nat
  rangeHigh : Bool
  rangeLow : Bool
  deriving DecidableEq, Repr

/-! ## Move store (chapter 4) -/

inductive StorePhase where
  | empty | loading | validating | valid
  deriving DecidableEq, Repr

/-- The move header, as BEGIN_LOAD declares it (4.4). -/
structure MoveHeader where
  moveId : Word32
  rounding : RoundMode
  refRate : Nat
  enables : Vector Bool 6
  counts : Vector Nat 6
  cueCount : Nat
  deriving DecidableEq, Repr

/-- An axis setup as received (R52); codes and values are judged at commit. -/
structure AxisSetup where
  scaleClass : Nat
  origin : Int
  softMin : Int
  softMax : Int
  slewSpeed : Nat
  slewAccel : Nat
  followingLimit : Nat
  tolerance : Nat
  deriving DecidableEq, Repr

/-- A level setup as received (R53). -/
structure LevelSetup where
  compensation : Nat
  nominal : Nat
  deriving DecidableEq, Repr

/-- An axis key as received (R54); `shape` is the code received. -/
structure AxisKey where
  time : Nat
  value : Int
  shape : Nat
  tangent : Option Int
  deriving DecidableEq, Repr

/-- A level key as received (R55). -/
structure LevelKey where
  time : Nat
  value : Nat
  shape : Nat
  deriving DecidableEq, Repr

/-- The content of one slot of the key pool (4.3). -/
inductive Slot where
  | axis (k : AxisKey) | level (k : LevelKey)
  deriving DecidableEq, Repr

/-- A cue entry as received (R56). -/
structure CueEntry where
  frame : Nat
  phase : Nat
  lines : Byte
  action : Nat
  pulse : Nat
  deriving DecidableEq, Repr

/-- Numbered cells, listed by strictly rising number: the key pool's slots and the capture
buffers' frames. A cell that is not listed has not been written. -/
abbrev Cells (α : Type) := List (Nat × α)

/-- The load-order record (R64): the list and first index of the first faulty chunk. -/
structure LoadOrder where
  list : ListName
  index : Option Nat
  deriving DecidableEq, Repr

/-- A COMMIT_LOAD whose validation is running (R65). -/
structure Commit where
  requester : BitVec 5
  began : Nat
  deriving DecidableEq, Repr

/-- The move store (4.1). T_end is `length` times 65,536. -/
structure MoveStore where
  phase : StorePhase
  header : Option MoveHeader
  axisSetups : Vector (Option AxisSetup) 4
  levelSetups : Vector (Option LevelSetup) 2
  cueSetup : Option Byte
  pool : Cells Slot
  blockStarts : Vector (Option Nat) 6
  cueList : List CueEntry
  nextIndex : Vector Nat 6
  nextCue : Nat
  loadOrder : Option LoadOrder
  length : Option Nat
  commit : Option Commit
  deriving DecidableEq, Repr

/-! ## Playback engine (chapters 6 and 7) -/

/-- The pass parameters of the last accepted START (R90). -/
structure PassParams where
  startFrame : Nat
  moveId : Word32
  rate : Nat
  scale : Nat
  haltLength : Nat
  interval : Nat
  deriving DecidableEq, Repr

/-- The path-position record (R93). -/
structure PathPosition where
  onPath : Bool
  tPark : Nat
  scale : Nat
  deriving DecidableEq, Repr

/-- One quantity of a slew (R94, R95): a demand in fine units, or the move time of a RETURN. -/
structure Quantity where
  value : Int
  dest : Int
  start : Int
  velocity : Nat
  speedLimit : Nat
  accel : Nat
  deriving DecidableEq, Repr

inductive AxisSlewKind where
  | cue | seek | jog
  deriving DecidableEq, Repr

/-- The slew record (R90): an axis slew of R95 or the return of R100; `decel` once a halt has
turned it into a decelerating one (R126, R127). -/
inductive Slew where
  | axes (kind : AxisSlewKind) (tPark scale : Nat) (moved : Vector (Option Quantity) 4)
      (decel : Bool)
  | path (q : Quantity) (count : Nat) (decel : Bool)
  deriving DecidableEq, Repr

/-- A halt cause: the code carried and the station it came from (R118). An undefined code of a received
HALT is held as it came (assumption 56). -/
structure HaltCause where
  code : Byte
  station : Nat
  deriving DecidableEq, Repr

/-- The halt record (R118). -/
structure HaltRecord where
  rampStart : Option Nat
  cause : Option HaltCause
  ownHalt : Option Nat
  rampIndex : Nat
  late : Bool
  deriving DecidableEq, Repr

/-- The playback engine (R90, R118). -/
structure Engine where
  nodeState : NodeState
  params : Option PassParams
  tick : Nat
  moveTime : Nat
  prevTime : Option Nat
  /-- The first tick of the pass has been taken. -/
  ticked : Bool
  /-- The tick duration of the latest pass tick: D of R119. -/
  tickDuration : Nat
  passNumber : Nat
  path : PathPosition
  slew : Option Slew
  holdTargets : Vector Int 4
  /-- The instant from which the report timer counts (R113). -/
  reportStart : Nat
  halt : HaltRecord
  deriving DecidableEq, Repr

/-! ## Axis channels (chapter 8) -/

/-- The pulses still to be emitted for the current tick (8.3), with the setup values the plan was
formed with (R150). Pulse k's leading edge is planned at first + k q + min k extra. -/
structure Plan where
  increasing : Bool
  first : Nat
  interval : Nat
  extra : Nat
  total : Nat
  emitted : Nat
  pulseWidth : Nat
  dirSetup : Nat
  deriving DecidableEq, Repr

/-- The channel setup (R149). -/
structure ChannelSetup where
  pulseWidth : Nat
  dirSetup : Nat
  ratio : Nat
  invert : Bool
  deriving DecidableEq, Repr

inductive CaptureSource where
  | encoder | commanded
  deriving DecidableEq, Repr

/-- An open capture (R147). -/
structure OpenCapture where
  value : Int
  roll : Nat
  source : CaptureSource
  deriving DecidableEq, Repr

/-- One axis channel (8.1). -/
structure AxisChannel where
  commanded : Word32
  /-- The commanded position before the last leading edge: what a read at that edge's base clock
  gives (R138). -/
  commandedBefore : Word32
  encoder : Word32
  /-- The encoder count at the start of the base clock of its last change (R144). -/
  encoderBefore : Word32
  /-- The instant of the encoder count's last change. -/
  encoderChanged : Option Nat
  increasing : Bool
  /-- The DIR output's level; it follows the held direction and the invert (R133). -/
  dirHigh : Bool
  /-- The STEP output's level. -/
  stepHigh : Bool
  /-- The trailing edge's instant of the latest pulse; none before the first one. -/
  trailing : Option Nat
  lastDirChange : Option Nat
  lastEdge : Option Nat
  plan : Option Plan
  setup : ChannelSetup
  openCapture : Option OpenCapture
  deficitTicks : Nat
  encoderErrors : Nat
  /-- The levels of the encoder inputs A and B at the last sample. -/
  encoderInputs : Bool × Bool
  deriving DecidableEq, Repr

/-! ## Pass registration (chapter 9) -/

inductive PassEnding where
  | inProgress | ended | halted | stopped
  deriving DecidableEq, Repr

inductive Verdict where
  | none | registered | marginal | failed | unchecked | incomplete
  deriving DecidableEq, Repr

inductive Grade where
  | over | gross
  deriving DecidableEq, Repr

/-- A buffer's descriptor while it holds a pass (9.1). -/
structure PassDescriptor where
  passNumber : Nat
  rate : Nat
  scale : Nat
  framesRecorded : Nat
  sources : Vector (Option CaptureSource) 4
  ending : PassEnding
  deriving DecidableEq, Repr

/-- A buffer of midpoints (9.1); `holds` none is the manual's "holds none". -/
structure CaptureBuffer where
  holds : Option PassDescriptor
  frames : Cells (Vector (Option Int) 4)
  deriving DecidableEq, Repr

/-- A deviation entry (9.1). -/
structure DeviationEntry where
  frame : Nat
  axis : Fin 4
  deviation : Int
  grade : Grade
  deriving DecidableEq, Repr

/-- An axis's largest absolute deviation and its pass frame (R160). -/
structure Maximum where
  value : Nat
  frame : Option Nat
  deriving DecidableEq, Repr

/-- A summary of the pass history (R163). -/
structure Summary where
  passNumber : Nat
  startFrame : Nat
  rate : Nat
  scale : Nat
  comparable : Bool
  framesRun : Nat
  framesRecorded : Nat
  ending : PassEnding
  cause : Option HaltCause
  late : Bool
  verdict : Verdict
  becameReference : Bool
  maxima : Vector Maximum 4
  entryCount : Nat
  overflow : Nat
  deriving DecidableEq, Repr

/-- Pass registration (9.1). `captureFirst` says that buffer 1 has the capture role. -/
structure Registration where
  buffer1 : CaptureBuffer
  buffer2 : CaptureBuffer
  captureFirst : Bool
  recording : Bool
  openFrame : Option Nat
  comparable : Bool
  compared : Vector Bool 4
  comparisons : Nat
  deviations : List DeviationEntry
  overflow : Nat
  listPass : Nat
  maxima : Vector Maximum 4
  grossSeen : Bool
  history : List Summary
  deriving DecidableEq, Repr

/-! ## Level and cue unit (chapter 10) -/

inductive LevelSource where
  | none | evaluated | set | disabled
  deriving DecidableEq, Repr

/-- A level channel (10.1). -/
structure LevelChannel where
  level : Nat
  source : LevelSource
  supply : Option Nat
  pendingDuty : Nat
  activeDuty : Nat
  supplyLow : Bool
  clamped : Bool
  deriving DecidableEq, Repr

/-- A cue line (10.5). -/
structure CueLine where
  restHigh : Bool
  active : Bool
  pulseEnd : Option Nat
  deriving DecidableEq, Repr

/-! ## Supervision (chapter 11) -/

inductive Sensitivity where
  | edge | edgeLevel
  deriving DecidableEq, Repr

/-- The station setup (R186). -/
structure StationSetup where
  undervoltage : Nat
  temperature : Nat
  limitSens : Sensitivity
  driveSens : Sensitivity
  pullLimit : Bool
  pullDrive : Bool
  pullEstop : Bool
  pullEncoder : Bool
  deriving DecidableEq, Repr

/-- A protection input with an edge latch: a limit or a drive-fault input (R184). -/
structure ProtectionInput where
  low : Bool
  latch : Bool
  deriving DecidableEq, Repr

/-- A threshold judgement (R183): its live condition and two run counts. -/
structure Judgement where
  live : Bool
  run : Nat
  recovery : Nat
  deriving DecidableEq, Repr

/-- The arithmetic exception record while it is written (R83). -/
structure ExceptionRecord where
  code : ExceptionCode
  track : Fin 4
  keyIndex : Nat
  occasion : Occasion
  tick : Nat
  deriving DecidableEq, Repr

/-- Supervision (chapter 11). -/
structure Supervision where
  latched : Vector Bool 18
  notes : Vector Bool 6
  /-- Axis sets of the six axis-bound causes, in the order of R196; bit n is axis n. -/
  axisSets : Vector (BitVec 4) 6
  /-- Origin stations of the five peer causes, in the order of R196. -/
  origins : Vector (Option Nat) 5
  dispositions : Vector Disposition 18
  counters : Vector Nat 11
  resetCause : ResetCause
  exception : Option ExceptionRecord
  exceptionCount : Nat
  limitMin : Vector ProtectionInput 4
  limitMax : Vector ProtectionInput 4
  drive : Vector ProtectionInput 4
  estopLow : Bool
  setup : StationSetup
  /-- The first scan after a reset is still to be discarded (R181). -/
  firstScan : Bool
  /-- The instant at which the running scan began. -/
  scanStart : Nat
  readings : Option ScanReadings
  adcFault : Bool
  supply : Judgement
  temp : Judgement
  deriving DecidableEq, Repr

/-! ## The whole part -/

/-- The state of one BK-440. -/
structure State where
  /-- The commands that are waiting, first in, first out. -/
  pending : List Instr
  /-- Base time: base clocks since the reset. -/
  now : Nat
  /-- The 32-bit serial that identifies the station. -/
  serial : Word32
  /-- The PARTICIPANT strap as read at the last reset. -/
  participant : Bool
  line : LineInterface
  roster : Roster
  clock : FrameClock
  store : MoveStore
  engine : Engine
  axes : Vector AxisChannel 4
  reg : Registration
  levels : Vector LevelChannel 2
  /-- The instant of the last PWM period boundary: the period count counts from it (R167). -/
  pwmStart : Nat
  cues : Vector CueLine 8
  sup : Supervision
  /-- THE MODEL'S OWN: the number of free values read so far (assumption 20). -/
  free : Nat
  deriving DecidableEq, Repr

/-- The block has no fault: every event it can be given has an effect the manual states, so no
command ends a run. -/
inductive Fault where
  deriving DecidableEq, Repr

/-- The reasons for which a command can be refused. -/
inductive Refusal where
  /-- Raised by `exec`'s arm for a command whose meaning is not written; none is left. Safe. -/
  | notModelled (mnemonic : String)
  deriving DecidableEq, Repr

/-! ## Reset values, block by block -/

/-- R18. -/
def LineInterface.reset (rate : LineRate) : LineInterface :=
  { rate, state := .waitQuiet, outputDominant := false, quietCount := 0, dominantRun := 0,
    txQueue := [], requestQueue := [], clashRun := 0, txOff := false, lineStuck := false, flushDue := false,
    reopenDue := false }

/-- R19: the node's own entry, as a reset or a reopening makes it. R19 gives no time of last report:
it is absent (the model's choice, assumption 38). -/
def RosterEntry.own (serial : Word32) (participant : Bool) : RosterEntry :=
  { serial, rank := 1, participant, lastState := none, lastReport := none, missingRun := 0,
    misalignedRun := 0, watched := false, heard := false }

/-- R19. -/
def Roster.reset (serial : Word32) (participant : Bool) : Roster :=
  { table := [.own serial participant], phase := .settling, ownPosition := some 0,
    beyondCount := 0, mismatch := false, resume := .idle, announceSeq := serial,
    announceCount := 0, quietStart := 0, schedule := .awaitIdle }

/-- R34; the frame origin's value is the model's (assumption 9). -/
def FrameClock.reset : FrameClock :=
  { state := .free, period := none, previousPeriod := none, consistentRun := 0,
    measuringBase := none, timingBase := none, origin := .real, missedRun := 0,
    tickIndex := none, roll := 0, closePending := false, lastMark := 0, slewStart := 0,
    rangeHigh := false, rangeLow := false }

/-- R51. -/
def MoveStore.reset : MoveStore :=
  { phase := .empty, header := none, axisSetups := #v[none, none, none, none],
    levelSetups := #v[none, none], cueSetup := none, pool := [],
    blockStarts := #v[none, none, none, none, none, none], cueList := [],
    nextIndex := #v[0, 0, 0, 0, 0, 0], nextCue := 0, loadOrder := none, length := none,
    commit := none }

/-- R90, R118; the tick duration's value is the model's (assumption 9). -/
def Engine.reset : Engine :=
  { nodeState := .settling, params := none, tick := 0, moveTime := 0, prevTime := none,
    ticked := false, tickDuration := 0, passNumber := 0,
    path := { onPath := false, tPark := 0, scale := 16384 }, slew := none,
    holdTargets := #v[0, 0, 0, 0], reportStart := 0,
    halt := { rampStart := none, cause := none, ownHalt := none, rampIndex := 0, late := false } }

/-- R132. The levels of the encoder inputs are the pins', which no reset changes. -/
def AxisChannel.resetWith (encoderInputs : Bool × Bool) : AxisChannel :=
  { commanded := 0, commandedBefore := 0, encoder := 0, encoderBefore := 0, encoderChanged := none,
    increasing := true, dirHigh := true, stepHigh := false, trailing := none,
    lastDirChange := none, lastEdge := none, plan := none,
    setup := { pulseWidth := 250, dirSetup := 250, ratio := 0, invert := false },
    openCapture := none, deficitTicks := 0, encoderErrors := 0, encoderInputs }

/-- R132, with both encoder inputs low: their levels before the first sample are the model's
(assumption 46). -/
def AxisChannel.reset : AxisChannel := .resetWith (false, false)

/-- R152. -/
def Registration.reset : Registration :=
  let noMax : Maximum := { value := 0, frame := none }
  { buffer1 := { holds := none, frames := [] }, buffer2 := { holds := none, frames := [] },
    captureFirst := true, recording := false, openFrame := none, comparable := false,
    compared := #v[false, false, false, false], comparisons := 0, deviations := [],
    overflow := 0, listPass := 0, maxima := #v[noMax, noMax, noMax, noMax], grossSeen := false,
    history := [] }

/-- R169. -/
def LevelChannel.reset : LevelChannel :=
  { level := 0, source := .none, supply := none, pendingDuty := 0, activeDuty := 0,
    supplyLow := false, clamped := false }

/-- R175. -/
def CueLine.reset : CueLine := { restHigh := false, active := false, pulseEnd := none }

/-- R186. -/
def StationSetup.reset : StationSetup :=
  { undervoltage := 600, temperature := 800, limitSens := .edgeLevel, driveSens := .edgeLevel,
    pullLimit := true, pullDrive := true, pullEstop := true, pullEncoder := true }

/-- R115: the default dispositions, in the order of R192's cause codes. -/
def defaultDispositions : Vector Disposition 18 :=
  #v[.stopNow, .stopNow, .haltRig, .haltRig, .haltRig, .haltRig, .haltRig, .haltRig, .haltRig,
     .haltRig, .haltRig, .haltRig, .haltRig, .warn, .warn, .warn, .warn, .warn]

/-- R115, R131, R181 to R184, R187, R188. -/
def Supervision.reset (cause : ResetCause) : Supervision :=
  let input : ProtectionInput := { low := false, latch := false }
  let quiet : Judgement := { live := false, run := 0, recovery := 0 }
  { latched := #v[false, false, false, false, false, false, false, false, false, false, false,
      false, false, false, false, false, false, false],
    notes := #v[false, false, false, false, false, false],
    axisSets := #v[0, 0, 0, 0, 0, 0], origins := #v[none, none, none, none, none],
    dispositions := defaultDispositions, counters := #v[0, 0, 0, 0, 0, 0, 0, 0, 0, 0, 0],
    resetCause := cause, exception := none, exceptionCount := 0,
    limitMin := #v[input, input, input, input], limitMax := #v[input, input, input, input],
    drive := #v[input, input, input, input], estopLow := false, setup := .reset,
    firstScan := true, scanStart := 0, readings := none, adcFault := false, supply := quiet,
    temp := quiet }

/-- The part right after a reset of the given cause, with the straps as read. The serial, the levels
of the encoder inputs, the waiting commands and the model's free-value count are not the reset's to
change (assumption 28). -/
def State.afterReset (cause : ResetCause) (rate : LineRate) (participant : Bool)
    (serial : Word32) (encoders : Vector (Bool × Bool) 4) (pending : List Instr) (free : Nat) :
    State :=
  { pending, now := 0, serial, participant, line := .reset rate,
    roster := .reset serial participant, clock := .reset, store := .reset, engine := .reset,
    axes := #v[.resetWith encoders[0], .resetWith encoders[1], .resetWith encoders[2],
      .resetWith encoders[3]],
    reg := .reset, levels := #v[.reset, .reset], pwmStart := 0
    cues := #v[.reset, .reset, .reset, .reset, .reset, .reset, .reset, .reset]
    sup := .reset cause, free }

/-- The part right after power-on reset. The straps (1 Mbit/s, participant) and the serial (0)
are the model's (assumption 8). -/
def State.reset : State :=
  State.afterReset .powerOn .mbit1 true 0
    #v[(false, false), (false, false), (false, false), (false, false)] [] 0

end Sys2Proof.Machine
end

