-- ==== Sys2Proof/Machine/Operands.lean ====
section
/-! DEFINITION. The fields of telegrams (R192): reading them from a payload, writing them into
one, and the numbers of the codes. -/

namespace Sys2Proof.Machine

/-! ## Reading fields -/

/-- Payload byte `i`; a byte beyond the payload's end reads 0 (no rule reads one). -/
def byteAt (p : List Byte) (i : Nat) : Nat := (p[i]?.getD 0).toNat

/-- The unsigned field of `n` bytes that begins at byte `i`, most significant byte first (R192). -/
def fieldAt (p : List Byte) (i : Nat) : Nat → Nat
  | 0 => 0
  | n + 1 => byteAt p i * 256 ^ n + fieldAt p (i + 1) n

/-- Bits `hi` down to `lo` of an unsigned number. -/
def bitsOf (v hi lo : Nat) : Nat := v / 2 ^ lo % 2 ^ (hi + 1 - lo)

/-- Bit `i` of an unsigned number. -/
def bitOf (v i : Nat) : Bool := v / 2 ^ i % 2 == 1

/-- A two's-complement field of `n` bytes (R192). -/
def signedOf (n v : Nat) : Int := if 2 * v < 256 ^ n then v else (v : Int) - 256 ^ n

/-- The signed field of `n` bytes at byte `i`. -/
def signedAt (p : List Byte) (i n : Nat) : Int := signedOf n (fieldAt p i n)

/-- A 20-bit field standing alone in 3 bytes: its top four bits are ignored (R192). -/
def frame20At (p : List Byte) (i : Nat) : Nat := fieldAt p i 3 % 2 ^ 20

/-! ## Writing fields -/

/-- The low `n` bytes of `v`, most significant first (R192). -/
def bytesOf (v : Nat) : Nat → List Byte
  | 0 => []
  | n + 1 => BitVec.ofNat 8 (v / 256 ^ n) :: bytesOf v n

/-- A signed value in `n` bytes, two's complement (R192). -/
def signedBytes (v : Int) (n : Nat) : List Byte := bytesOf (v % (256 ^ n : Nat)).toNat n

/-- One byte of bits, the list's first element in bit 7. -/
def packBits (bs : List Bool) : Nat := bs.foldl (fun acc b => 2 * acc + b.toNat) 0

/-! ## Codes (R192) -/

def NodeState.code : NodeState → Nat
  | .settling => 0 | .excluded => 1 | .idle => 2 | .loading => 3 | .slewing => 4 | .armed => 5
  | .pending => 6 | .running => 7 | .halting => 8 | .halted => 9 | .ended => 10
  | .returning => 11 | .stopped => 12

def ClockState.code : ClockState → Nat
  | .free => 0 | .acquiring => 1 | .locked => 2 | .holdover => 3 | .coasting => 4
  | .localMarks => 5

def Cause.idx : Cause → Fin 18
  | .estop => 0 | .driveFault => 1 | .limitSwitch => 2 | .markLost => 3 | .frameSlip => 4
  | .peerAbsent => 5 | .peerDeclined => 6 | .peerHalted => 7 | .remoteHalt => 8
  | .lineFault => 9 | .followingError => 10 | .softLimitClamp => 11 | .supplyUv => 12
  | .stepDeficit => 13 | .arithOverflow => 14 | .grossDeviation => 15 | .tempHigh => 16
  | .adcFault => 17

/-- The cause a code stands for; none for an undefined code. -/
def Cause.ofCode (n : Nat) : Option Cause :=
  [Cause.estop, .driveFault, .limitSwitch, .markLost, .frameSlip, .peerAbsent, .peerDeclined,
   .peerHalted, .remoteHalt, .lineFault, .followingError, .softLimitClamp, .supplyUv,
   .stepDeficit, .arithOverflow, .grossDeviation, .tempHigh, .adcFault][n]?

/-- The cause's code as a byte. -/
def Cause.byte (c : Cause) : Byte := BitVec.ofNat 8 c.idx

def Note.idx : Note → Fin 6
  | .lockedEvent => 0 | .unlock => 1 | .haltLate => 2 | .disarmed => 3 | .truncated => 4
  | .loadStray => 5

def Counter.idx : Counter → Fin 11
  | .missedMarks => 0 | .spuriousMarks => 1 | .formErrors => 2 | .checkErrors => 3
  | .unknownClass => 4 | .clashes => 5 | .txDrops => 6 | .requestOverruns => 7
  | .misaligned => 8 | .strayLoads => 9 | .strayStarts => 10

/-- In the order R196 lists them, from 0 (assumption 44). -/
def ResetCause.code : ResetCause → Nat
  | .none => 0 | .powerOn => 1 | .pin => 2 | .stationReset => 3

def ListName.code : ListName → Nat
  | .track i => i | .cues => 6 | .none => 7

/-- R196's order (assumption 44). -/
def LevelSource.code : LevelSource → Nat
  | .none => 0 | .evaluated => 1 | .set => 2 | .disabled => 3

def PassEnding.code : PassEnding → Nat
  | .inProgress => 0 | .ended => 1 | .halted => 2 | .stopped => 3

def Verdict.code : Verdict → Nat
  | .none => 0 | .registered => 1 | .marginal => 2 | .failed => 3 | .unchecked => 4
  | .incomplete => 5

def Grade.code : Grade → Nat
  | .over => 0 | .gross => 1

/-- A capture source in the two bits of the REFERENCE part; 3 when absent (R194). -/
def sourceCode : Option CaptureSource → Nat
  | some .encoder => 0 | some .commanded => 1 | none => 3

/-- R196's order (assumption 44). -/
def Occasion.code : Occasion → Nat
  | .pass => 0 | .slew => 1 | .request => 2

/-- R196's order (assumption 44). -/
def ExceptionCode.code : ExceptionCode → Nat
  | .overflowEval => 0 | .overflowScale => 1

/-- Reply codes (R192). -/
inductive ReplyCode where
  | done | clamped | busy | refused | range | unknown
  deriving DecidableEq, Repr

def ReplyCode.code : ReplyCode → Nat
  | .done => 0 | .clamped => 1 | .busy => 2 | .refused => 3 | .range => 4 | .unknown => 5

/-- Refusal reasons (R192). -/
inductive RefusalReason where
  | none | trackDisabled | capacity | notLoading | abandoned | loadOrder | missingSetup
  | countShort | firstKeyNotZero | timeNotIncreasing | limitsInverted | valueRange
  | cueBeyondEnd | noMove | offPath | axisDisabled | fixed | inputActive | notAvailable
  | channelDisabled | notBroadcast
  deriving DecidableEq, Repr

def RefusalReason.code : RefusalReason → Nat
  | .none => 0 | .trackDisabled => 1 | .capacity => 2 | .notLoading => 3 | .abandoned => 4
  | .loadOrder => 5 | .missingSetup => 6 | .countShort => 7 | .firstKeyNotZero => 8
  | .timeNotIncreasing => 9 | .limitsInverted => 10 | .valueRange => 11 | .cueBeyondEnd => 12
  | .noMove => 13 | .offPath => 14 | .axisDisabled => 15 | .fixed => 16 | .inputActive => 17
  | .notAvailable => 18 | .channelDisabled => 19 | .notBroadcast => 20

/-- Decline reasons (R192). -/
inductive DeclineReason where
  | notArmed | peerNotArmed | countDiffers | tooLate | moveId | scaleDiffers | paramRange
  | rosterMismatch
  deriving DecidableEq, Repr

def DeclineReason.code : DeclineReason → Nat
  | .notArmed => 0 | .peerNotArmed => 1 | .countDiffers => 2 | .tooLate => 3 | .moveId => 4
  | .scaleDiffers => 5 | .paramRange => 6 | .rosterMismatch => 7

/-! ## Requests (R194) -/

/-- The payload lengths, target included, that R194 defines for a request kind. -/
def definedLength (kind : BitVec 4) (len : Nat) : Bool :=
  match kind.toNat with
  | 0 => len == 3 | 1 => len == 1 | 2 => len == 4 | 3 => len == 6 | 4 => len == 6 | 5 => len == 5
  | 6 => len == 22 | 7 => len == 1 | 8 => len == 9 || len == 12 | 9 => len == 3 | 10 => len == 2
  | 11 => len == 4 | 12 => len == 2 | 13 => len == 4 | 14 => len == 1 | _ => len == 1

/-- The whole payload of a request: the target, then the rest. -/
def RequestRecord.payload (r : RequestRecord) : List Byte := r.target :: r.body

/-- The 3-byte head of a reply (R194). -/
def replyHead (requester : BitVec 5) (code : ReplyCode) (reason : RefusalReason) : List Byte :=
  [BitVec.ofNat 8 requester.toNat, BitVec.ofNat 8 code.code, BitVec.ofNat 8 reason.code]

end Sys2Proof.Machine
end

