-- ==== Sys2Proof/Machine/Coding.lean ====
section
/-! DEFINITION. The coding of the rig line: bit times (R1), the fields and the check of a telegram
(R2), stuff bits (R3), the judgement of a received telegram (R8), its duration on the line, and
which command of the table a received telegram is (R10, R11). A bit is a Bool: true is recessive,
false is dominant. -/

namespace Sys2Proof.Machine

/-- Base clocks in one bit time (R1). -/
def bitTime : LineRate → Nat
  | .mbit1 => 50 | .mbit2 => 25

/-- The sample point within a bit, in base clocks (R1). -/
def samplePoint (r : LineRate) : Nat := bitTime r * 3 / 5

/-- The `n` low bits of `v`, most significant first. -/
def bitsMsb (v : Nat) : Nat → List Bool
  | 0 => []
  | n + 1 => bitOf v n :: bitsMsb v n

/-- The number a list of bits spells, most significant first. -/
def numberOf (bs : List Bool) : Nat := packBits bs

/-- One step of the line's check: x^16 + x^12 + x^5 + 1 (R2). -/
def crcStep (reg : BitVec 16) (bit : Bool) : BitVec 16 :=
  let shifted := reg <<< 1
  if reg.msb == bit then shifted else shifted ^^^ 0x1021#16

/-- The check over a run of bits, from a register of all ones (R2). -/
def crc16 (bs : List Bool) : BitVec 16 := bs.foldl crcStep 0xffff#16

/-- A telegram as the line carries it (R2). -/
structure Telegram where
  cls : BitVec 3
  station : BitVec 5
  kind : BitVec 4
  payload : List Byte
  deriving DecidableEq, Repr

/-- The arbitration value: class × 512 + station × 16 + kind (R2). -/
def arbitrationValue (cls : BitVec 3) (station : BitVec 5) (kind : BitVec 4) : Nat :=
  cls.toNat * 512 + station.toNat * 16 + kind.toNat

/-- Fields 2 to 4 in sending order: arbitration, length, payload (R2). -/
def Telegram.body (g : Telegram) : List Bool :=
  bitsMsb (arbitrationValue g.cls g.station g.kind) 12 ++ bitsMsb g.payload.length 5 ++
    g.payload.flatMap fun b => bitsMsb b.toNat 8

/-- The unstuffed region: start bit, body, check (R2). -/
def Telegram.region (g : Telegram) : List Bool :=
  false :: (g.body ++ bitsMsb (crc16 g.body).toNat 16)

/-- Inserts a stuff bit after every run of 6 equal bits; the stuff bit begins the next run with a
length of 1 (R3). `last` and `run` are the level and length of the run so far. -/
def stuff (last : Bool) (run : Nat) : List Bool → List Bool
  | [] => []
  | b :: bs =>
    let run' := if b == last then run + 1 else 1
    if run' = 6 then b :: (!b) :: stuff (!b) 1 bs else b :: stuff b run' bs

/-- The end field: 8 recessive bits (R2). -/
def endField : List Bool := List.replicate Config.endBits true

/-- A whole telegram as its bits on the line, stuff bits and end field included. -/
def Telegram.lineBits (g : Telegram) : List Bool := stuff true 0 g.region ++ endField

/-- Bit times a telegram holds the line, with the 3 idle bits before the next start (R2 and the
table of durations). -/
def Telegram.bitTimes (g : Telegram) : Nat := g.lineBits.length + Config.intermissionBits

/-- The base clocks for which a telegram holds the line. -/
def Telegram.duration (r : LineRate) (g : Telegram) : Nat := g.bitTimes * bitTime r

/-! ## Receiving -/

/-- What a receiver finds of the telegram it has read (R8). -/
inductive RxFinding where
  | formError
  | checkError
  | undefinedClass
  | wellFormed (g : Telegram)
  deriving DecidableEq, Repr

/-- The level and length of the run of equal bits last read. -/
structure RunState where
  last : Bool
  run : Nat
  deriving DecidableEq, Repr

/-- Reads `n` unstuffed bits, taking out the stuff bit after each run of 6; none is a seventh equal
bit where a stuff bit was due, or the line's bits running out (R3). -/
def readBits (st : RunState) : Nat → List Bool → Option (List Bool × RunState × List Bool)
  | 0, bs => some ([], st, bs)
  | _ + 1, [] => none
  | n + 1, b :: bs =>
    let run := if b == st.last then st.run + 1 else 1
    if run = 6 then
      match bs with
      | [] => none
      | c :: cs =>
        if c == b then none
        else (readBits ⟨c, 1⟩ n cs).map fun (xs, r) => (b :: xs, r)
    else (readBits ⟨b, run⟩ n bs).map fun (xs, r) => (b :: xs, r)

/-- The payload bytes a run of bits spells, eight bits to the byte. -/
def bytesOfBits : Nat → List Bool → List Byte
  | 0, _ => []
  | n + 1, bs => BitVec.ofNat 8 (numberOf (bs.take 8)) :: bytesOfBits n (bs.drop 8)

/-- The kinds each class defines (R10). -/
def definedKind (cls : BitVec 3) (kind : BitVec 4) : Bool :=
  match cls.toNat with
  | 0 => kind == 0 | 1 => kind.toNat ≤ 1 | 2 => kind == 0 | 3 => kind.toNat ≤ 1
  | 4 => true | 5 => true | 6 => kind.toNat ≤ 5 | _ => false

/-- The judgement of R8 over the bits of one telegram, from its start bit to its end field. -/
def judgeBits (bs : List Bool) : RxFinding :=
  match readBits ⟨true, 0⟩ 18 bs with
  | none => .formError
  | some (head, st, rest) =>
    let arb := numberOf ((head.drop 1).take 12)
    let len := numberOf (head.drop 13)
    if 24 < len then .formError
    else
      match readBits st (8 * len + 16) rest with
      | none => .formError
      | some (tail, _, after) =>
        if after.take 8 ≠ endField then .formError
        else
          let g : Telegram :=
            { cls := BitVec.ofNat 3 (arb / 512), station := BitVec.ofNat 5 (arb / 16),
              kind := BitVec.ofNat 4 arb, payload := bytesOfBits len tail }
          let check := crc16 (head.drop 1 ++ tail.take (8 * len))
          if numberOf (tail.drop (8 * len)) ≠ check.toNat then .checkError
          else if definedKind g.cls g.kind then .wellFormed g
          else .undefinedClass

/-- The command of the table that the arrival of a well-formed telegram is, by its class and kind
(R10, R11); a HALT is generic when its F is FFFFFFh (R192). -/
def Telegram.arrival (t : Nat) (g : Telegram) : Instr :=
  match g.cls.toNat, g.kind.toNat with
  | 0, 0 =>
    if genericMark g.payload then .genericHalt t g.station g.payload
    else .halt t g.station g.payload
  | 1, 0 => .start t g.station g.payload
  | 1, 1 => .decline t g.station g.payload
  | 2, 0 => .report t g.station g.payload
  | 3, 0 => .announce t g.station g.payload
  | 3, 1 => .digest t g.station g.payload
  | 4, _ => .requestArrival t g.station g.kind g.payload
  | 5, _ => .reply t g.station g.kind g.payload
  | 6, 0 => .axisSetup t g.station g.payload
  | 6, 1 => .levelSetup t g.station g.payload
  | 6, 2 => .cueSetup t g.station g.payload
  | 6, 3 => .keys t g.station g.payload
  | 6, 4 => .levelKeys t g.station g.payload
  | 6, 5 => .cues t g.station g.payload
  | _, _ => .undefinedClass t

/-- The command that a finding of R8 is, at instant `t`. -/
def RxFinding.command (t : Nat) : RxFinding → Instr
  | .formError => .formError t
  | .checkError => .checkError t
  | .undefinedClass => .undefinedClass t
  | .wellFormed g => g.arrival t

end Sys2Proof.Machine
end

