-- ==== Sys2Proof/Machine/Ops.lean ====
section
/-! DEFINITION. The operations the meanings share: base time, updates of one block, counters,
numbered cells, the transmit queue with its outcomes, and the announce delays. -/

namespace Sys2Proof.Machine

/-! ## Base time and updates of one block -/

/-- Base time reaches instant `t`; it never runs back (assumption 2). -/
def State.reach (t : Nat) (s : State) : State := { s with now := Nat.max s.now t }

def State.onLine (f : LineInterface → LineInterface) (s : State) : State :=
  { s with line := f s.line }
def State.onRoster (f : Roster → Roster) (s : State) : State := { s with roster := f s.roster }
def State.onClock (f : FrameClock → FrameClock) (s : State) : State :=
  { s with clock := f s.clock }
def State.onStore (f : MoveStore → MoveStore) (s : State) : State := { s with store := f s.store }
def State.onEngine (f : Engine → Engine) (s : State) : State := { s with engine := f s.engine }
def State.onReg (f : Registration → Registration) (s : State) : State := { s with reg := f s.reg }
def State.onSup (f : Supervision → Supervision) (s : State) : State := { s with sup := f s.sup }
def State.onAxis (i : Fin 4) (f : AxisChannel → AxisChannel) (s : State) : State :=
  { s with axes := s.axes.set i (f s.axes[i]) }
def State.onLevel (i : Fin 2) (f : LevelChannel → LevelChannel) (s : State) : State :=
  { s with levels := s.levels.set i (f s.levels[i]) }
def State.onAxes (f : AxisChannel → AxisChannel) (s : State) : State :=
  { s with axes := Vector.ofFn fun i => f s.axes[i] }
def State.onCues (f : CueLine → CueLine) (s : State) : State :=
  { s with cues := Vector.ofFn fun i => f s.cues[i] }

/-- The four axes in order. -/
def axisOrder : List (Fin 4) := [0, 1, 2, 3]

/-- The two level channels in order. -/
def levelOrder : List (Fin 2) := [0, 1]

/-! ## Counters (R188) -/

/-- One more, holding at 255. -/
def bump8 (n : Nat) : Nat := Nat.min 255 (n + 1)

/-- A counter of supervision rises by 1. -/
def State.count (c : Counter) (s : State) : State :=
  s.onSup fun u => { u with counters := u.counters.set c.idx (bump8 u.counters[c.idx]) }

/-- The value of a counter. -/
def Supervision.counter (u : Supervision) (c : Counter) : Nat := u.counters[c.idx]

/-! ## Numbered cells -/

/-- What cell `a` holds; none when nothing has written it. -/
def Cells.read {α : Type} (a : Nat) : Cells α → Option α
  | [] => none
  | (b, x) :: cs => if b = a then some x else Cells.read a cs

/-- Writes cell `a`, keeping the cells in rising order of number. -/
def Cells.write {α : Type} (a : Nat) (x : α) : Cells α → Cells α
  | [] => [(a, x)]
  | (b, y) :: cs =>
    if a < b then (a, x) :: (b, y) :: cs
    else if a = b then (a, x) :: cs
    else (b, y) :: Cells.write a x cs

/-- The canonical form: numbers strictly rising, each number once. -/
def Cells.wf {α : Type} : Cells α → Bool
  | [] => true
  | [_] => true
  | (a, _) :: (b, y) :: cs => a < b && Cells.wf ((b, y) :: cs)

/-! ## Node state and station number -/

/-- A node is in a pass while it is RUNNING or HALTING (R89). -/
def NodeState.inPass : NodeState → Bool
  | .running | .halting => true
  | _ => false

/-- The node's station number: none while SETTLING and while its own entry is BEYOND (R23). -/
def Roster.station (r : Roster) : Option Nat :=
  if r.phase = .closed then r.ownPosition else none

/-- The station field of the node's own telegrams (R10); 31 where it has no number. -/
def State.stationField (s : State) : BitVec 5 := BitVec.ofNat 5 (s.roster.station.getD 31)

/-- The node's own number as a halt cause carries it. -/
def State.ownNumber (s : State) : Nat := s.roster.station.getD 31

/-! ## The transmit queue (R12, R13) -/

def TxEntry.value (e : TxEntry) : Nat := arbitrationValue e.cls e.station e.kind

/-- A new entry for the queue. -/
def TxEntry.new (cls : BitVec 3) (station : BitVec 5) (kind : BitVec 4) (payload : List Byte)
    (owner : TxOwner) : TxEntry :=
  { cls, station, kind, payload, owner, sending := false, cancelled := false, flushing := false }

/-- R12: after every entry of lower or equal value, before every entry of higher value. -/
def placeEntry (e : TxEntry) : List TxEntry → List TxEntry
  | [] => [e]
  | x :: xs => if e.value < x.value then e :: x :: xs else x :: placeEntry e xs

/-- R12: the head is the first entry not marked for cancellation. -/
def queueHead (q : List TxEntry) : Option TxEntry := q.find? fun e => !e.cancelled

/-- The first entry that satisfies `p` becomes `f` of it; the others stand. -/
def updateFirst (p : TxEntry → Bool) (f : TxEntry → TxEntry) : List TxEntry → List TxEntry
  | [] => []
  | x :: xs => if p x then f x :: xs else x :: updateFirst p f xs

/-- A REPORT that is held and not in transmission (R13). Two can be where one has lost arbitration
(assumption 55). -/
def TxEntry.heldReport (e : TxEntry) : Bool := e.owner == .report && !e.sending

/-- Takes out the last entry, in order, that is not in transmission (R13). -/
def takeLastWaiting : List TxEntry → Option (TxEntry × List TxEntry)
  | [] => none
  | x :: xs =>
    match takeLastWaiting xs with
    | some (d, rest) => some (d, x :: rest)
    | none => if x.sending then none else some (x, xs)

/-- What the queue does with an offered telegram (R13). -/
inductive Taking where
  /-- Not taken: the node is EXCLUDED. -/
  | excluded
  /-- The held REPORT is replaced in place. -/
  | replaced (queue : List TxEntry)
  /-- Taken and placed. -/
  | placed (queue : List TxEntry)
  /-- A HALT taken at a full queue, whose last waiting entry is displaced. -/
  | displaced (queue : List TxEntry) (gone : TxEntry)
  /-- Not taken: the queue is full. -/
  | full
  deriving DecidableEq, Repr

/-- R13, the first of its cases that applies. Where two REPORTs wait, an offered one replaces the first in
order: DESIGN CHOICE (assumption 55). -/
def judgeOffer (excluded : Bool) (e : TxEntry) (q : List TxEntry) : Taking :=
  if excluded then .excluded
  else if e.owner = .report ∧ q.any TxEntry.heldReport then
    .replaced (updateFirst TxEntry.heldReport (fun x => { x with payload := e.payload }) q)
  else if q.length < Config.txCapacity then .placed (placeEntry e q)
  else if e.cls = 0 then
    match takeLastWaiting (placeEntry e q) with
    | some (d, rest) => .displaced rest d
    | none => .full
  else .full

/-! ## Values read at the base clock of their change (R138, R144) -/

/-- The commanded position as read at `now`: at the base clock of a leading edge, the value before
that edge (R138). Which reads take it is assumption 45. -/
def AxisChannel.commandedAt (now : Nat) (x : AxisChannel) : Int :=
  (if x.lastEdge = some now then x.commandedBefore else x.commanded).toInt

/-- The encoder count as read at `now`: at the base clock of a change, the value before that change
(R144). -/
def AxisChannel.encoderAt (now : Nat) (x : AxisChannel) : Word32 :=
  if x.encoderChanged = some now then x.encoderBefore else x.encoder

/-! ## Announce delays and outcomes (R15, R20) -/

/-- The next value of the announce sequence (R20). -/
def nextAnnounceSeq (v : Word32) : Word32 := 12345#32 + 1103515245#32 * v

/-- The delay, in base clocks, that a sequence value draws: 2 to 40 ms (R20). -/
def announceDelay (v : Word32) : Nat := (2 + v.toNat / 65536 % 39) * Config.clocksPerMs

/-- A delay is drawn and begins now (R20). -/
def drawAnnounceDelay (now : Nat) (r : Roster) : Roster :=
  let v := nextAnnounceSeq r.announceSeq
  { r with announceSeq := v, schedule := .delay (now + announceDelay v) }

/-- The outcome of an own ANNOUNCE (R20, R21): SENT raises the count and restarts the quiet timer,
and any outcome begins a new delay while the schedule waits for it and the count is below 3. -/
def announceOutcome (sent : Bool) (now : Nat) (r : Roster) : Roster :=
  if r.phase = .closed then r
  else
    let waited := r.schedule = .offered
    let r := if sent then { r with quietStart := now } else r
    if ¬ waited then r
    else if ¬ sent then drawAnnounceDelay now r
    else if r.announceCount + 1 < 3 then
      drawAnnounceDelay now { r with announceCount := r.announceCount + 1 }
    else { r with announceCount := r.announceCount + 1, schedule := .done }

/-- An entry has left the transmit queue: its outcome reaches the block that queued it (R15). A
HALT's outcome clears the own-HALT item whatever it is (R119, R123); a STATION_RESET or
ROSTER_REOPEN reply's leaving makes its emptying or reopening due (R15, R27). -/
def State.outcome (owner : TxOwner) (sent : Bool) (s : State) : State :=
  match owner with
  | .halt true => s.onEngine fun e => { e with halt := { e.halt with ownHalt := none } }
  | .announce => s.onRoster (announceOutcome sent s.now)
  | .stationResetReply true => s.onLine fun l => { l with flushDue := true }
  | .rosterReopenReply => s.onLine fun l => { l with reopenDue := true }
  | .halt false | .stationResetReply false => s
  | .genericHalt | .decline | .report | .digest | .trackReply _ | .reply => s

/-- Offers a telegram to the transmit queue (R13). -/
def State.offer (e : TxEntry) (s : State) : State :=
  match judgeOffer (s.engine.nodeState == .excluded) e s.line.txQueue with
  | .excluded => s
  | .replaced q => s.onLine fun l => { l with txQueue := q }
  | .placed q => s.onLine fun l => { l with txQueue := q }
  | .displaced q gone =>
    ((s.onLine fun l => { l with txQueue := q }).count .txDrops).outcome gone.owner false
  | .full => (s.count .txDrops).outcome e.owner false

/-- Whether an offered telegram is taken (R13). -/
def State.takes (e : TxEntry) (s : State) : Bool :=
  match judgeOffer (s.engine.nodeState == .excluded) e s.line.txQueue with
  | .excluded | .full => false
  | .replaced _ | .placed _ | .displaced _ _ => true

/-! ## Emptying the transmit queue (R15) -/

/-- Outcome FLUSHED for each of a list of entries, in order. -/
def State.outcomes (sent : Bool) (es : List TxEntry) (s : State) : State :=
  es.foldl (fun s e => s.outcome e.owner sent) s

/-- Empties the queue: every entry leaves FLUSHED but for those `keep` spares and the one in
transmission, which is marked to leave FLUSHED should its attempt lose arbitration. -/
def State.emptyTx (keep : TxEntry → Bool) (s : State) : State :=
  let gone := s.line.txQueue.filter fun e => !(e.sending || keep e)
  let rest := (s.line.txQueue.filter fun e => e.sending || keep e).map fun e =>
    if e.sending && !keep e then { e with flushing := true } else e
  (s.onLine fun l => { l with txQueue := rest }).outcomes false gone

/-- A reply to a STATION_RESET. R15 never flushes the reply whose leaving brings an emptying; that
the emptying spares any other STATION_RESET reply too is the model's choice (assumption 37). -/
def TxEntry.isResetReply (e : TxEntry) : Bool :=
  match e.owner with
  | .stationResetReply _ => true
  | _ => false

/-! ## The bits of the line (R1, R4, R9) -/

/-- One bit read: the dominant run counts in every state (R9), the quiet count in WAIT_QUIET only
(R4). -/
def LineInterface.readBit (dominant : Bool) (l : LineInterface) : LineInterface :=
  { l with
    dominantRun := if dominant then l.dominantRun + 1 else 0
    quietCount :=
      if l.state = .waitQuiet then (if dominant then 0 else l.quietCount + 1) else l.quietCount }

/-- `n` bits read in a row, all of one level. -/
def LineInterface.readRun (dominant : Bool) : Nat → LineInterface → LineInterface
  | 0, l => l
  | n + 1, l => (l.readBit dominant).readRun dominant n

/-! ## The end of a transmission attempt (R5, R6, R12) -/

/-- The entry in transmission, if any. -/
def sendingEntry (q : List TxEntry) : Option TxEntry := q.find? TxEntry.sending

/-- The levels the interface sets its output to, bit by bit, over the attempt now on the line
(R1 to R3); none while it sends nothing, when the output is recessive. -/
def LineInterface.outputBits (l : LineInterface) : List Bool :=
  match sendingEntry l.txQueue with
  | none => []
  | some e => Telegram.lineBits
      { cls := e.cls, station := e.station, kind := e.kind, payload := e.payload }

/-- The attempt ends with the entry leaving the queue: SENT, or DROPPED_CLASH. -/
def State.endAttempt (sent : Bool) (s : State) : State :=
  match sendingEntry s.line.txQueue with
  | none => s
  | some e =>
    (s.onLine fun l => { l with txQueue := l.txQueue.filter fun x => !x.sending }).outcome
      e.owner sent

/-- The attempt ends without an outcome of its own: a marked entry leaves REMOVED or FLUSHED, any
other goes back to waiting at its place (R5, R14, R15). A REPORT does so too beside one taken meanwhile,
though R13 says that two never both wait: DESIGN CHOICE (assumption 55). -/
def State.loseAttempt (s : State) : State :=
  match sendingEntry s.line.txQueue with
  | none => s
  | some e =>
    if e.cancelled || e.flushing then s.endAttempt false
    else s.onLine fun l =>
      { l with txQueue := updateFirst TxEntry.sending (fun x => { x with sending := false })
                            l.txQueue }

end Sys2Proof.Machine
end

