-- ==== Sys2Proof/Machine/Flags.lean ====
section
/-! DEFINITION. Latched flags, axis sets and origins (R187), inputs in force (R184), blocking
conditions (R91), live conditions and the fault summary (R190). -/

namespace Sys2Proof.Machine

/-! ## Causes (R115, R187) -/

/-- The place of an axis-bound cause in the axis sets of R196. -/
def Cause.axisSlot : Cause → Option (Fin 6)
  | .limitSwitch => some 0 | .driveFault => some 1 | .followingError => some 2
  | .stepDeficit => some 3 | .softLimitClamp => some 4 | .grossDeviation => some 5
  | _ => none

/-- The place of a peer cause in the origin stations of R196. -/
def Cause.originSlot : Cause → Option (Fin 5)
  | .peerAbsent => some 0 | .peerHalted => some 1 | .frameSlip => some 2
  | .peerDeclined => some 3 | .remoteHalt => some 4
  | _ => none

/-- The causes whose disposition is fixed (R115). -/
def Cause.fixed : Cause → Bool
  | .followingError | .softLimitClamp | .supplyUv | .stepDeficit | .arithOverflow
  | .grossDeviation => false
  | _ => true

/-- Adds an axis to an axis-bound cause's axis set (R187). -/
def Supervision.addAxis (c : Cause) (axis : Option (Fin 4)) (u : Supervision) : Supervision :=
  match c.axisSlot, axis with
  | some k, some a => { u with axisSets := u.axisSets.set k (u.axisSets[k] ||| (1#4 <<< a.val)) }
  | _, _ => u

/-- Writes a peer cause's origin station if it is absent (R187). -/
def Supervision.addOrigin (c : Cause) (station : Option Nat) (u : Supervision) : Supervision :=
  match c.originSlot, station with
  | some k, some n =>
    if u.origins[k].isNone then { u with origins := u.origins.set k (some n) } else u
  | _, _ => u

/-- Steps 1 and 2 of R187: the latched flag, then the origin. -/
def Supervision.latch (c : Cause) (axis : Option (Fin 4)) (station : Option Nat)
    (u : Supervision) : Supervision :=
  ({ u with latched := u.latched.set c.idx true }.addAxis c axis).addOrigin c station

/-- Latches one of the six flags that are not causes (R187). -/
def State.note (n : Note) (s : State) : State :=
  s.onSup fun u => { u with notes := u.notes.set n.idx true }

/-- A cause's current disposition (R115). -/
def Supervision.disposition (u : Supervision) (c : Cause) : Disposition := u.dispositions[c.idx]

/-- Clears the latched flags, axis sets and origin stations (R189, R191). -/
def Supervision.clearFlags (u : Supervision) : Supervision :=
  { u with
    latched := Vector.ofFn fun _ => false
    notes := Vector.ofFn fun _ => false
    axisSets := Vector.ofFn fun _ => 0
    origins := Vector.ofFn fun _ => none }

/-! ## Inputs in force (R184) -/

/-- R184: in force while low under EDGE_LEVEL, while latched under EDGE. -/
def ProtectionInput.inForce (sens : Sensitivity) (i : ProtectionInput) : Bool :=
  match sens with
  | .edgeLevel => i.low
  | .edge => i.latch

/-- The limit input of an axis at the given end. -/
def Supervision.limit (u : Supervision) (a : Fin 4) : LimitEnd → ProtectionInput
  | .min => u.limitMin[a]
  | .max => u.limitMax[a]

def Supervision.limitInForce (u : Supervision) (a : Fin 4) (side : LimitEnd) : Bool :=
  (u.limit a side).inForce u.setup.limitSens

def Supervision.driveInForce (u : Supervision) (a : Fin 4) : Bool :=
  u.drive[a].inForce u.setup.driveSens

/-- Some limit input is in force (R190). -/
def Supervision.anyLimitInForce (u : Supervision) : Bool :=
  axisOrder.any fun a => u.limitInForce a .min || u.limitInForce a .max

/-- Replaces the limit input of an axis. -/
def Supervision.setLimit (a : Fin 4) (side : LimitEnd) (i : ProtectionInput)
    (u : Supervision) : Supervision :=
  match side with
  | .min => { u with limitMin := u.limitMin.set a i }
  | .max => { u with limitMax := u.limitMax.set a i }

/-- A falling edge at an input: it reads low, and under EDGE its latch is set (R184). -/
def ProtectionInput.fall (sens : Sensitivity) (i : ProtectionInput) : ProtectionInput :=
  { low := true, latch := i.latch || sens == .edge }

/-- A rising edge at an input: the latch, if set, stands (R184). -/
def ProtectionInput.rise (i : ProtectionInput) : ProtectionInput := { i with low := false }

/-- CLEAR_FAULT at an input: the latch clears if the input is inactive (R130, R184). -/
def ProtectionInput.clearLatch (i : ProtectionInput) : ProtectionInput :=
  { i with latch := i.latch && i.low }

/-- A change of sensitivity at an input (R185). -/
def ProtectionInput.resense (old new : Sensitivity) (i : ProtectionInput) : ProtectionInput :=
  match old, new with
  | .edge, .edgeLevel => { i with latch := false }
  | .edgeLevel, .edge => { i with latch := i.latch || i.low }
  | _, _ => i

/-- Arm condition 6 fails: a blocking condition is present (R91). -/
def State.blocked (s : State) : Bool :=
  s.sup.estopLow || s.sup.anyLimitInForce || axisOrder.any s.sup.driveInForce ||
    s.line.txOff || s.line.lineStuck || s.sup.supply.live

/-! ## The fault summary (R190) -/

/-- Some latched cause has one of the given dispositions now (R190). -/
def Supervision.latchedUnder (u : Supervision) (p : Disposition → Bool) : Bool :=
  (List.finRange 18).any fun i => u.latched[i] && p u.dispositions[i]

/-- The fault summary byte of a REPORT (R190, 12.1). -/
def State.faultSummary (s : State) : Nat :=
  packBits [s.sup.latchedUnder (· != .warn), s.sup.latchedUnder (· == .warn),
    s.sup.anyLimitInForce, s.sup.estopLow, s.line.txOff] * 8 + s.clock.state.code

end Sys2Proof.Machine
end

