-- ==== Sys2Proof/Machine/Path.lean ====
section
/-! DEFINITION. The path arithmetic (chapter 5): from a move time, a scale and the stored move to
step targets, level values and cue crossings. Nothing here writes the state; what an evaluation
raises is returned as data (R73). Also the exact square root of the slew rule (R94). -/

namespace Sys2Proof.Machine

/-! ## Rounding (R76) -/

/-- The exact quotient a / b rounded by the move's mode: NEAREST with ties away from zero, CHOP
toward zero. -/
def roundQuot (m : RoundMode) (a : Int) (b : Nat) : Int :=
  match m with
  | .nearest =>
    if 0 ≤ a then ((2 * a.natAbs + b) / (2 * b) : Nat) else -((2 * a.natAbs + b) / (2 * b) : Nat)
  | .chop => if 0 ≤ a then (a.natAbs / b : Nat) else -(a.natAbs / b : Nat)

/-- Saturation to the signed 32-bit range (R79, R80). -/
def saturate32 (v : Int) : Int := max (-2147483648) (min 2147483647 v)

/-- Whether a value lies outside the signed 32-bit range. -/
def outside32 (v : Int) : Bool := v < -2147483648 || 2147483647 < v

/-! ## The floor of a square root (R94) -/

/-- Fixes the bits of the root from bit `k` down. -/
def isqrtFrom (n : Nat) : Nat → Nat → Nat
  | 0, r => if (r + 1) * (r + 1) ≤ n then r + 1 else r
  | k + 1, r =>
    let c := r + 2 ^ (k + 1)
    isqrtFrom n k (if c * c ≤ n then c else r)

/-- floor(sqrt n), of the exact n. -/
def isqrt (n : Nat) : Nat := isqrtFrom n (Nat.log2 n / 2) 0

/-! ## The move store's readers (R70) -/

/-- The keys of a track from its block: key i is in slot block start + i (R57). A slot that was
never written, or that holds the other kind of key, yields no key. -/
def trackSlots (st : MoveStore) (track : Fin 6) : List Slot :=
  match st.header, st.blockStarts[track] with
  | some h, some b => (List.range h.counts[track]).filterMap fun i => st.pool.read (b + i)
  | _, _ => []

def axisKeysOf (st : MoveStore) (a : Fin 4) : List AxisKey :=
  (trackSlots st (a.castLE (by decide))).filterMap fun
    | .axis k => some k
    | .level _ => none

def levelKeysOf (st : MoveStore) (c : Fin 2) : List LevelKey :=
  (trackSlots st (c.natAdd 4)).filterMap fun
    | .level k => some k
    | .axis _ => none

/-- The enable that the held header gives a track; none while no header is held. -/
def trackEnable (st : MoveStore) (track : Fin 6) : Option Bool :=
  st.header.map fun h => h.enables[track]

/-- The move of a VALID store enables this axis. -/
def MoveStore.axisPlays (st : MoveStore) (a : Fin 4) : Bool :=
  st.phase == .valid && trackEnable st (a.castLE (by decide)) == some true

/-- The move of a VALID store enables this level channel. -/
def MoveStore.levelPlays (st : MoveStore) (c : Fin 2) : Bool :=
  st.phase == .valid && trackEnable st (c.natAdd 4) == some true

/-- A channel is disabled while the store is LOADING, VALIDATING or VALID with the track's enable
no (R135, R169). -/
def MoveStore.trackDisabled (st : MoveStore) (track : Fin 6) : Bool :=
  st.phase != .empty && trackEnable st track == some false

def MoveStore.axisDisabled (st : MoveStore) (a : Fin 4) : Bool :=
  st.trackDisabled (a.castLE (by decide))

def MoveStore.levelDisabled (st : MoveStore) (c : Fin 2) : Bool :=
  st.trackDisabled (c.natAdd 4)

/-- The rounding mode of the move; NEAREST where no header is held (no rule reads it then). -/
def MoveStore.rounding (st : MoveStore) : RoundMode :=
  match st.header with
  | some h => h.rounding
  | none => .nearest

/-- T_end in MTU (R67). -/
def MoveStore.tEnd (st : MoveStore) : Nat := st.length.getD 0 * 65536

/-- A cue entry's time in MTU (R56). -/
def CueEntry.time (c : CueEntry) : Nat := c.frame * 65536 + c.phase * 64

/-! ## Segments and shapes (R74 to R79) -/

/-- The segment parameter u (R75). -/
def segmentParam (t t0 t1 : Nat) : Nat := (t - t0 * 65536) * 65536 / ((t1 - t0) * 65536)

/-- HOLD and LINEAR (R77): the shape codes 0 and 1. -/
def linearShape (m : RoundMode) (shape : Nat) (p0 p1 : Int) (u : Nat) : Int :=
  if shape = 0 then p0 else p0 + roundQuot m ((p1 - p0) * u) 65536

/-- The EASE weights h01, h10 and h11 (R78). -/
def easeWeights (u : Nat) : Int × Int × Int :=
  let u2 := u * u / 65536
  let u3 := u2 * u / 65536
  (3 * (u2 : Int) - 2 * u3, (u3 : Int) - 2 * u2 + u, (u3 : Int) - u2)

/-- EASE, before saturation (R78). -/
def easeShape (m : RoundMode) (p0 p1 v0 v1 : Int) (df u : Nat) : Int :=
  let (h01, h10, h11) := easeWeights u
  p0 + roundQuot m ((p1 - p0) * h01 + (v0 * h10 + v1 * h11) * df) 65536

/-- The shape stage of one segment, before saturation. -/
def axisShape (m : RoundMode) (k0 k1 : AxisKey) (t : Nat) : Int :=
  let u := segmentParam t k0.time k1.time
  if k0.shape = 2 then
    easeShape m k0.value k1.value (k0.tangent.getD 0) (k1.tangent.getD 0) (k1.time - k0.time) u
  else linearShape m k0.shape k0.value k1.value u

/-- The shape stage of an axis track (R74): the value before saturation and, within a segment, the
index of its first key. Beyond the last key there is no segment. `i` is the index of the list's
first key. -/
def axisTrackAt (m : RoundMode) (t : Nat) : Nat → List AxisKey → Option (Int × Option Nat)
  | _, [] => none
  | _, [k] => some (k.value, none)
  | i, k0 :: k1 :: ks =>
    if t / 65536 < k1.time then some (axisShape m k0 k1 t, some i)
    else axisTrackAt m t (i + 1) (k1 :: ks)

/-- A level value (R86). -/
def levelTrackAt (m : RoundMode) (t : Nat) : List LevelKey → Option Nat
  | [] => none
  | [k] => some k.value
  | k0 :: k1 :: ks =>
    if t / 65536 < k1.time then
      some (linearShape m k0.shape k0.value k1.value (segmentParam t k0.time k1.time)).toNat
    else levelTrackAt m t (k1 :: ks)

/-! ## Scale, clamp and step target (R80 to R82) -/

/-- The scale stage, before saturation (R80); scale class 0 is SCALED. -/
def scaleStage (m : RoundMode) (setup : AxisSetup) (p : Int) (scale : Nat) : Int :=
  if setup.scaleClass = 0 then
    setup.origin + roundQuot m ((p - setup.origin) * scale) 16384
  else p

/-- The soft-limit clamp (R81). -/
def clampStage (setup : AxisSetup) (p : Int) : Int :=
  if p < setup.softMin * 256 then setup.softMin * 256
  else if setup.softMax * 256 < p then setup.softMax * 256
  else p

/-- One axis's evaluation: its step target, and what a raising occasion raises. -/
structure AxisEval where
  target : Int
  overflowEval : Bool
  overflowScale : Bool
  clamped : Bool
  /-- The segment's first key; none beyond the last key. -/
  keyIndex : Option Nat
  deriving DecidableEq, Repr

/-- The stages of one axis target (R74 to R82). -/
def evalAxis (m : RoundMode) (setup : AxisSetup) (keys : List AxisKey) (t scale : Nat) :
    Option AxisEval :=
  (axisTrackAt m t 0 keys).map fun (raw, key) =>
    let p := saturate32 raw
    let scaled := scaleStage m setup p scale
    let ps := saturate32 scaled
    let c := clampStage setup ps
    { target := roundQuot m c 256, overflowEval := outside32 raw,
      overflowScale := outside32 scaled, clamped := c != ps, keyIndex := key }

/-- The evaluation of an axis of the stored move; a disabled axis yields no result (R73). -/
def MoveStore.evalAxis (st : MoveStore) (t scale : Nat) (a : Fin 4) : Option AxisEval :=
  if st.axisPlays a then
    match st.axisSetups[a] with
    | some setup => Machine.evalAxis st.rounding setup (axisKeysOf st a) t scale
    | none => none
  else none

/-- The step targets of the enabled axes (R73). -/
def MoveStore.evalAxes (st : MoveStore) (t scale : Nat) : Vector (Option AxisEval) 4 :=
  Vector.ofFn fun a => st.evalAxis t scale a

/-- The level value of a level channel; a disabled channel yields none (R73, R86). -/
def MoveStore.evalLevel (st : MoveStore) (t : Nat) (c : Fin 2) : Option Nat :=
  if st.levelPlays c then levelTrackAt st.rounding t (levelKeysOf st c) else none

/-- The crossing entries of a pass tick, in index order (R87). -/
def MoveStore.crossings (st : MoveStore) (prev : Option Nat) (t : Nat) : List CueEntry :=
  st.cueList.filter fun c => c.time ≤ t && (prev.all fun p => p < c.time)

end Sys2Proof.Machine
end

