-- ==== Sys2Proof/Machine/LevelCue.lean ====
section
/-! DEFINITION. The level and cue unit (chapter 10): duties with supply compensation, level
values, and the cue lines' pulses, entries and rest levels. -/

namespace Sys2Proof.Machine

/-! ## Duty (R171, R173) -/

/-- Compensation is in force with this nominal reading and this supply reading (R171). -/
def State.compensation (s : State) (c : Fin 2) : Option (Nat × Nat) :=
  match s.store.levelSetups[c], s.levels[c].supply with
  | some setup, some meas =>
    if s.store.levelPlays c && setup.compensation == 1 && !s.sup.adcFault then
      some (setup.nominal, meas)
    else none
  | _, _ => none

/-- The pending duty, SUPPLY_LOW and LEVEL_CLAMPED of a level `v` (R171). -/
def dutyOf (m : RoundMode) (v : Nat) : Option (Nat × Nat) → Nat × Bool × Bool
  | none => (v, false, false)
  | some (nominal, meas) =>
    if 2 * meas < nominal then (min 1023 (2 * v), true, decide (1023 < 2 * v))
    else
      let d := (roundQuot m (v * nominal : Nat) meas).toNat
      (min 1023 d, false, decide (1023 < d))

/-- The pending duty of a channel is computed afresh (R168, R171). -/
def State.computeDuty (c : Fin 2) (s : State) : State :=
  let d := dutyOf s.store.rounding s.levels[c].level (s.compensation c)
  s.onLevel c fun l => { l with pendingDuty := d.1, supplyLow := d.2.1, clamped := d.2.2 }

def State.computeDuties (s : State) : State := (s.computeDuty 0).computeDuty 1

/-- A channel takes a level (R170, R174). -/
def State.takeLevel (c : Fin 2) (v : Nat) (src : LevelSource) (s : State) : State :=
  (s.onLevel c fun l => { l with level := v, source := src }).computeDuty c

/-- The level values at move time `t` go to the enabled channels (R170). -/
def State.evaluateLevels (t : Nat) (s : State) : State :=
  levelOrder.foldl (fun s c =>
    match s.store.evalLevel t c with
    | some v => s.takeLevel c v .evaluated
    | none => s) s

/-! ## Cue lines -/

/-- A pulse end's countdown at a pass tick (R177). -/
def CueLine.countDown (l : CueLine) : CueLine :=
  match l.pulseEnd with
  | none => l
  | some n => if n ≤ 1 then { l with active := false, pulseEnd := none }
              else { l with pulseEnd := some (n - 1) }

/-- A pending pulse ends at once (R178); a line ACTIVE by SET keeps its state. -/
def CueLine.endPulse (l : CueLine) : CueLine :=
  if l.pulseEnd.isSome then { l with active := false, pulseEnd := none } else l

/-- INACTIVE, with no pulse end (R175, R179). -/
def CueLine.toRest (l : CueLine) : CueLine := { l with active := false, pulseEnd := none }

/-- One crossing entry at a line of its mask (R176): SET 0, CLEAR 1, PULSE 2. -/
def CueLine.act (e : CueEntry) (l : CueLine) : CueLine :=
  match e.action with
  | 0 => { l with active := true, pulseEnd := none }
  | 1 => { l with active := false, pulseEnd := none }
  | 2 => { l with active := true, pulseEnd := some e.pulse }
  | _ => l

/-- One crossing entry at every line (R176). -/
def applyEntry (ls : Vector CueLine 8) (e : CueEntry) : Vector CueLine 8 :=
  Vector.ofFn fun i => if e.lines.getLsbD i then ls[i].act e else ls[i]

/-- The crossing entries of a tick, in the order they are handed (R176). -/
def State.applyEntries (es : List CueEntry) (s : State) : State :=
  { s with cues := es.foldl applyEntry s.cues }

/-- The pin level of a cue line: its active level is the one it does not rest at (10.5). -/
def CueLine.high (l : CueLine) : Bool := l.restHigh != l.active

/-- Every line takes a rest level and becomes INACTIVE (R175); bit n of the mask is CUEn. -/
def State.takeRestLevels (mask : Byte) (s : State) : State :=
  { s with cues := Vector.ofFn fun i =>
      { restHigh := mask.getLsbD i, active := false, pulseEnd := none } }

/-! ## The level outputs (R167) -/

/-- The position within the current PWM period. -/
def State.periodCount (s : State) : Nat := (s.now - s.pwmStart) % Config.pwmClocks

/-- The level output within a period (R167). -/
def levelOutput (active count : Nat) : Bool :=
  if active = 0 then false else if active = 1023 then true else decide (count < active * 2)

end Sys2Proof.Machine
end

