-- ==== Sys2Proof/Machine/Registration.lean ====
section
/-! DEFINITION. Pass registration's own work (chapter 9), as functions on its state: buffers and
their roles, a pass's start and end, a midpoint's recording and comparison, and the verdict. What
a comparison raises is returned as data; Machine/Axis.lean raises it. -/

namespace Sys2Proof.Machine

/-! ## Roles (9.1, R162) -/

/-- The buffer in the capture role. -/
def Registration.capture (r : Registration) : CaptureBuffer :=
  if r.captureFirst then r.buffer1 else r.buffer2

/-- The buffer in the reference role. -/
def Registration.reference (r : Registration) : CaptureBuffer :=
  if r.captureFirst then r.buffer2 else r.buffer1

def Registration.setCapture (b : CaptureBuffer) (r : Registration) : Registration :=
  if r.captureFirst then { r with buffer1 := b } else { r with buffer2 := b }

def Registration.setReference (b : CaptureBuffer) (r : Registration) : Registration :=
  if r.captureFirst then { r with buffer2 := b } else { r with buffer1 := b }

/-- Applies a function to the newest summary; the history is kept oldest first. -/
def updateNewest (f : Summary → Summary) : List Summary → List Summary
  | [] => []
  | [x] => [f x]
  | x :: y :: xs => x :: updateNewest f (y :: xs)

/-- The role swap (R162): the capture buffer takes the reference role as it stands, and the other
buffer takes the capture role and holds none; the newest summary's became-reference is set. -/
def Registration.swap (r : Registration) : Registration :=
  let emptied := r.setReference { r.reference with holds := none }
  { emptied with
    captureFirst := !r.captureFirst
    history := updateNewest (fun x => { x with becameReference := true }) r.history }

/-- R153: empties registration for a new move; the buffer roles are kept. -/
def Registration.emptied (r : Registration) : Registration :=
  { r with
    buffer1 := { r.buffer1 with holds := none }
    buffer2 := { r.buffer2 with holds := none }
    deviations := [], overflow := 0, listPass := 0
    maxima := Vector.ofFn fun _ => { value := 0, frame := none }
    grossSeen := false, history := [] }

/-! ## A pass's start (R154, R157, R163) -/

/-- R157: the reference is present with the pass's own rate and scale. -/
def Registration.comparableWith (r : Registration) (rate scale : Nat) : Bool :=
  match r.reference.holds with
  | some d => d.rate == rate && d.scale == scale
  | none => false

/-- A summary as a pass's start adds it (R163). -/
def Summary.begun (pass startFrame rate scale : Nat) (comparable : Bool) : Summary :=
  { passNumber := pass, startFrame, rate, scale, comparable, framesRun := 0,
    framesRecorded := 0, ending := .inProgress, cause := none, late := false, verdict := .none,
    becameReference := false, maxima := Vector.ofFn fun _ => { value := 0, frame := none },
    entryCount := 0, overflow := 0 }

/-- The history with a new summary; of 8 the oldest is removed first (R163). -/
def addSummary (x : Summary) (h : List Summary) : List Summary :=
  (if Config.historyCapacity ≤ h.length then h.drop (h.length + 1 - Config.historyCapacity)
   else h) ++ [x]

/-- R154: a pass has begun. -/
def Registration.passBegun (pass startFrame rate scale : Nat) (r : Registration) :
    Registration :=
  let comparable := r.comparableWith rate scale
  let r := r.setCapture { r.capture with
    holds := some { passNumber := pass, rate, scale, framesRecorded := 0,
                    sources := Vector.ofFn fun _ => none, ending := .inProgress } }
  { r with
    deviations := [], listPass := pass, overflow := 0, comparisons := 0
    maxima := Vector.ofFn fun _ => { value := 0, frame := none }
    grossSeen := false, comparable, compared := Vector.ofFn fun _ => false
    history := addSummary (.begun pass startFrame rate scale comparable) r.history
    recording := true, openFrame := some 0 }

/-- R155: a counted mark within the pass raises the open pass frame by 1. -/
def Registration.frameAdvanced (r : Registration) : Registration :=
  if r.recording then { r with openFrame := r.openFrame.map (· + 1) } else r

/-! ## Midpoints (R156 to R160) -/

/-- A midpoint as a channel hands it, beside its axis (R148). -/
structure Midpoint where
  value : Int
  source : CaptureSource
  /-- The roll count of the frame. -/
  roll : Nat
  /-- The frame was closed by a CLOSE, and not by the next OPEN. -/
  byClose : Bool
  deriving DecidableEq, Repr

/-- The reference's midpoint for a pass frame and axis, below its frames recorded (R157). -/
def Registration.referenceAt (r : Registration) (frame : Nat) (a : Fin 4) : Option Int :=
  match r.reference.holds with
  | some d =>
    if frame < d.framesRecorded then
      match r.reference.frames.read frame with
      | some row => row[a]
      | none => none
    else none
  | none => none

/-- The reference's source for an axis (R157). -/
def Registration.referenceSource (r : Registration) (a : Fin 4) : Option CaptureSource :=
  match r.reference.holds with
  | some d => d.sources[a]
  | none => none

/-- A frame's row begins with every axis absent, whatever an earlier pass left in it (R152). -/
def Registration.clearRow (frame : Nat) (r : Registration) : Registration :=
  r.setCapture { r.capture with
    frames := r.capture.frames.write frame (Vector.ofFn fun _ => none) }

/-- R156: an enabled axis's midpoint is written to the open frame's cell; at pass frame 0 its
source is set and the axis is marked compared or not (R157). -/
def Registration.write (frame : Nat) (a : Fin 4) (m : Midpoint) (r : Registration) :
    Registration :=
  let b := r.capture
  let row := (b.frames.read frame).getD (Vector.ofFn fun _ => none)
  let frames := b.frames.write frame (row.set a (some m.value))
  let holds :=
    if frame = 0 then b.holds.map fun d => { d with sources := d.sources.set a (some m.source) }
    else b.holds
  let r := r.setCapture { holds, frames }
  if frame = 0 then
    { r with compared :=
        r.compared.set a (r.comparable && r.referenceSource a == some m.source) }
  else r

/-- A deviation's grade against the tolerance (R158); none is within. -/
def gradeOf (tolerance : Nat) (deviation : Int) : Option Grade :=
  if deviation.natAbs ≤ tolerance then none
  else if deviation.natAbs ≤ 4 * tolerance then some .over
  else some .gross

/-- R159: the entry is appended, or counted as overflow when the list is full. -/
def Registration.addDeviation (e : DeviationEntry) (r : Registration) : Registration :=
  if r.deviations.length < Config.deviationCapacity then
    { r with deviations := r.deviations ++ [e] }
  else { r with overflow := r.overflow + 1 }

/-- R160: the maximum is replaced by a strictly greater absolute deviation. -/
def Maximum.update (frame : Nat) (deviation : Int) (m : Maximum) : Maximum :=
  if m.value < deviation.natAbs then { value := deviation.natAbs, frame := some frame } else m

/-- R158: the comparison of a recorded midpoint, if one is made, and whether it is GROSS. -/
def Registration.compare (tolerance frame : Nat) (a : Fin 4) (m : Midpoint)
    (r : Registration) : Registration × Bool :=
  match r.referenceAt frame a with
  | some ref =>
    if r.comparable && r.compared[a] then
      let d := m.value - ref
      let r := { r with
        comparisons := r.comparisons + 1
        maxima := r.maxima.set a (r.maxima[a].update frame d) }
      match gradeOf tolerance d with
      | none => (r, false)
      | some g =>
        let r := r.addDeviation { frame, axis := a, deviation := d, grade := g }
        if g = .gross then ({ r with grossSeen := true }, true) else (r, false)
    else (r, false)
  | none => (r, false)

/-- R156: frames recorded after the midpoints of a frame have been taken. -/
def Registration.frameRecorded (frame : Nat) (r : Registration) : Registration :=
  r.setCapture { r.capture with
    holds := r.capture.holds.map fun d => { d with framesRecorded := frame + 1 } }

/-! ## A pass's end (R161, R163) -/

/-- R161: the verdict, the first row of its table that applies. -/
def Registration.verdict (r : Registration) (ending : PassEnding) : Verdict :=
  if ending ≠ .ended then .incomplete
  else if r.comparable = false ∨ r.comparisons = 0 then .unchecked
  else if r.grossSeen then .failed
  else if r.deviations ≠ [] ∨ 0 < r.overflow then .marginal
  else .registered

/-- The frames recorded of the buffer in the capture role. -/
def Registration.captureFrames (r : Registration) : Nat :=
  match r.capture.holds with
  | some d => d.framesRecorded
  | none => 0

/-- A summary completed at its pass's end (R163). -/
def Registration.complete (r : Registration) (ending : PassEnding) (cause : Option HaltCause)
    (late : Bool) (x : Summary) : Summary :=
  { x with
    framesRun := r.openFrame.getD 0 + 1
    framesRecorded := r.captureFrames
    ending, cause, late, verdict := r.verdict ending
    maxima := r.maxima, entryCount := r.deviations.length, overflow := r.overflow }

/-- R161: a pass has ended; an ENDED pass with frames recorded becomes the reference when there is
none (R162). -/
def Registration.passEnded (ending : PassEnding) (cause : Option HaltCause) (late : Bool)
    (r : Registration) : Registration :=
  let r := { r with recording := false }
  let r := r.setCapture { r.capture with
    holds := r.capture.holds.map fun d => { d with ending } }
  let r := { r with history := updateNewest (r.complete ending cause late) r.history }
  if ending = .ended ∧ r.reference.holds = none ∧ 0 < r.captureFrames then r.swap else r

end Sys2Proof.Machine
end

