-- ==== Sys2Proof/Machine/Engine.lean ====
section
/-! DEFINITION. The playback engine's shared operations (chapters 6 and 7): reports, changes of
node state, the arm conditions, halt events, and the raising of a cause with what its disposition
does in each node state (R117, R128, R187). -/

namespace Sys2Proof.Machine

/-! ## Telegrams of the engine -/

/-- The F of the pass parameters, or 0 when they are absent (R90). -/
def State.passStart (s : State) : Nat :=
  match s.engine.params with
  | some p => p.startFrame
  | none => 0

/-- The move id of the VALID move, or 0 (R111). -/
def State.validMoveId (s : State) : Nat :=
  if s.store.phase = .valid then
    match s.store.header with
    | some h => h.moveId.toNat
    | none => 0
  else 0

/-- The content of a REPORT, taken at the instant of the offer (R111, 12.1). -/
def State.reportPayload (s : State) : List Byte :=
  bytesOf ((s.store.phase == .valid).toNat * 16 + s.engine.nodeState.code) 1 ++
  bytesOf (s.clock.roll % 2 ^ 20 * 2 ^ 20 + s.passStart % 2 ^ 20) 5 ++
  bytesOf s.faultSummary 1 ++ bytesOf s.validMoveId 4 ++ bytesOf (s.engine.passNumber % 256) 1 ++
  axisOrder.flatMap fun a => signedBytes (s.axes[a].commandedAt s.now) 3

/-- A REPORT is offered; outside a pass the offer sets the report timer to 0 (R111, R113). In
SETTLING and EXCLUDED none is offered. -/
def State.offerReport (s : State) : State :=
  if s.engine.nodeState = .settling ∨ s.engine.nodeState = .excluded then s
  else
    let s := if s.engine.nodeState.inPass then s
             else s.onEngine fun e => { e with reportStart := s.now }
    s.offer (.new 2 s.stationField 0 s.reportPayload .report)

/-- A DECLINE naming `f` is offered (R104). -/
def State.offerDecline (f : Nat) (reason : DeclineReason) (s : State) : State :=
  s.offer (.new 1 s.stationField 1 (bytesOf f 3 ++ bytesOf reason.code 1) .decline)

/-- A generic HALT is offered (R122, R128). -/
def State.offerGenericHalt (code : Byte) (s : State) : State :=
  s.offer (.new 0 s.stationField 0 (bytesOf Config.genericF 3 ++ bytesOf 0 4 ++ [code])
    .genericHalt)

/-- The node's own HALT for the running pass is offered and recorded as the own HALT (R119). -/
def State.offerHalt (ramp : Nat) (code : Byte) (s : State) : State :=
  (s.onEngine fun e => { e with halt := { e.halt with ownHalt := some ramp } }).offer
    (.new 0 s.stationField 0 (bytesOf s.passStart 3 ++ bytesOf ramp 4 ++ [code]) (.halt true))

/-- A reply is offered (R17, R194). -/
def State.offerReply (r : RequestRecord) (code : ReplyCode) (reason : RefusalReason)
    (content : List Byte) (s : State) : State :=
  s.offer (.new 5 s.stationField r.kind (replyHead r.requester code reason ++ content) .reply)

/-- A reply that is its head alone. -/
def State.answer (r : RequestRecord) (code : ReplyCode) (s : State) : State :=
  s.offerReply r code .none []

/-- A REFUSED reply with its reason. -/
def State.refuse (r : RequestRecord) (reason : RefusalReason) (s : State) : State :=
  s.offerReply r .refused reason []

/-! ## The frame clock's exits (R35, R43, R44, R178) -/

/-- Every pending cue pulse ends (R178). -/
def State.endPulses (s : State) : State := s.onCues CueLine.endPulse

/-- The clock enters FREE (R35), which ends every pending pulse (R178). -/
def State.enterFree (s : State) : State :=
  (s.onClock fun c => { c with
    state := .free, period := none, previousPeriod := none, timingBase := none,
    tickIndex := none, missedRun := 0, consistentRun := 0, closePending := false }).endPulses

/-- The participant count (R19). -/
def Roster.participantCount (r : Roster) : Nat := r.table.countP RosterEntry.participant

/-- R44: the roster is CLOSED and its one participant is the node's own entry. -/
def Roster.aloneParticipant (r : Roster) : Bool :=
  r.phase == .closed && r.participantCount == 1 &&
    match r.ownPosition with
    | some i => (r.table[i]?.map RosterEntry.participant).getD false
    | none => false

/-- The last three conditions of LOCAL (R44). -/
def State.localHolds (s : State) : Bool :=
  s.roster.aloneParticipant && s.store.phase == .valid &&
    Config.markQuietClocks ≤ s.now - s.clock.lastMark

/-- The node is PENDING or in a pass: the states in which LOCAL stays (R44). -/
def NodeState.holdsLocal : NodeState → Bool
  | .pending | .running | .halting => true
  | _ => false

/-- A clock in LOCAL stays there: the node holds it, or its conditions hold (R44). -/
def State.localStays (s : State) : Bool := s.engine.nodeState.holdsLocal || s.localHolds

/-- A clock in COASTING leaves it when the node is out of the pass (R43); a clock in LOCAL leaves
it when a condition has failed and the node is not PENDING or in a pass (R44). -/
def State.clockExit (s : State) : State :=
  match s.clock.state with
  | .coasting => if s.engine.nodeState.inPass then s else s.enterFree
  | .localMarks =>
    if s.localStays then s else s.enterFree
  | .free | .acquiring | .locked | .holdover => s

/-! ## Changes of node state (R89, R113, R179) -/

/-- The states whose entry offers a REPORT (R113). -/
def NodeState.reportsEntry : NodeState → Bool
  | .running | .halting | .settling | .excluded => false
  | _ => true

/-- The node enters a state: the cue lines go to rest on ARMED (R179), the clock leaves COASTING
or LOCAL where it must, and a REPORT is offered where R113 has one. -/
def State.enterNode (ns : NodeState) (s : State) : State :=
  let s := s.onEngine fun e => { e with nodeState := ns }
  let s := if ns = .armed then s.onCues CueLine.toRest else s
  let s := s.clockExit
  if ns.reportsEntry then s.offerReport else s

/-! ## Arming (R91, R92) -/

/-- Arm condition 3: each enabled axis stands on its target at T = 0 and the given scale, as a
QUIET evaluation gives it (R85). -/
def State.axesAtStart (scale : Nat) (s : State) : Bool :=
  axisOrder.all fun a =>
    !s.store.axisPlays a ||
      match s.store.evalAxis 0 scale a with
      | some ev => s.axes[a].commanded.toInt == ev.target
      | none => false

/-- The arm conditions (R91). A clock in LOCAL that R44 takes out of it does not hold condition 4; a node
with a station number is neither SETTLING nor EXCLUDED (R23). -/
def State.armHolds (s : State) : Bool :=
  s.store.phase == .valid &&
  s.engine.path.onPath && s.engine.path.tPark == 0 &&
  s.axesAtStart s.engine.path.scale &&
  (s.clock.state == .locked || s.clock.state == .localMarks && s.localStays) &&
  s.roster.station.isSome && !s.roster.mismatch &&
  !s.blocked

/-- The arm conditions are judged afresh (R92), in PENDING with the DECLINE of R105. -/
def State.judgeArm (s : State) : State :=
  match s.engine.nodeState with
  | .idle => if s.armHolds then s.enterNode .armed else s
  | .armed => if s.armHolds then s else s.enterNode .idle
  | .pending =>
    if s.armHolds then s else (s.offerDecline s.passStart .notArmed).enterNode .idle
  | .settling | .excluded | .loading | .slewing | .running | .halting | .halted | .ended
  | .returning | .stopped => s

/-- PENDING ends in ARMED (R105). Should the clock leave LOCAL with it (R44), the arm conditions are
judged with the clock's change (R91). -/
def State.backToArmed (s : State) : State :=
  let t := s.enterNode .armed
  if t.clock.state = s.clock.state then t else t.judgeArm

/-- A completion enters ARMED when every condition holds and IDLE otherwise, as one change of
state (R92). -/
def State.enterArmedOrIdle (s : State) : State :=
  s.enterNode (if s.armHolds then .armed else .idle)

/-! ## The path position (R93) -/

def State.offPath (s : State) : State :=
  s.onEngine fun e => { e with path := { e.path with onPath := false } }

def State.onPathAt (t scale : Nat) (s : State) : State :=
  s.onEngine fun e => { e with path := { onPath := true, tPark := t, scale } }

/-- A halt-class event in ARMED or PENDING: off-path, DISARMED latched, IDLE (R117). -/
def State.disarm (s : State) : State := (s.offPath.note .disarmed).enterNode .idle

/-! ## Hold targets -/

/-- Every hold target becomes its axis's commanded position (R126, R128). -/
def State.holdAtCommanded (s : State) : State :=
  s.onEngine fun e => { e with holdTargets := Vector.ofFn fun a => s.axes[a].commanded.toInt }

/-! ## The watch and registration at a pass's end -/

/-- Every entry ceases to be watched; the runs stay (R30). -/
def State.endWatch (s : State) : State :=
  s.onRoster fun r => { r with table := r.table.map fun e => { e with watched := false } }

/-- Registration is told that the pass has ended (R161). -/
def State.registerEnd (ending : PassEnding) (cause : Option HaltCause) (s : State) : State :=
  s.onReg (Registration.passEnded ending cause s.engine.halt.late)

/-! ## Halt events (R117, R119, R126, R127) -/

/-- The lead of R119 for a tick duration. -/
def haltLead (duration : Nat) : Nat := min 8 (max 2 ((100000 + duration - 1) / duration))

/-- The ramp start an own halt event at the latest tick makes (R119). -/
def Engine.ownRampStart (e : Engine) : Nat := e.tick + haltLead e.tickDuration

/-- An own halt event (R119): with no ramp start held it sets one and offers a HALT. -/
def State.ownHaltEvent (code : Byte) (s : State) : State :=
  match s.engine.halt.rampStart with
  | some _ => s
  | none =>
    let ramp := s.engine.ownRampStart
    (s.onEngine fun e => { e with halt :=
      { e.halt with rampStart := some ramp, cause := some ⟨code, s.ownNumber⟩ } }).offerHalt
      ramp code

/-- The slew turns into a decelerating slew (R126, R127). -/
def Slew.decelerate : Slew → Slew
  | .axes kind t scale moved _ => .axes kind t scale moved true
  | .path q count _ => .path q count true

def State.decelerate (s : State) : State :=
  s.onEngine fun e => { e with slew := e.slew.map Slew.decelerate }

/-- A HALT_RIG disposition by node state (R117). -/
def State.haltRig (c : Cause) (s : State) : State :=
  match s.engine.nodeState with
  | .running => s.ownHaltEvent c.byte
  | .pending => (s.offerDecline s.passStart .notArmed).disarm
  | .armed => s.disarm
  | .slewing | .returning => s.decelerate
  | .halting | .idle | .loading | .halted | .ended | .stopped | .settling | .excluded => s

/-! ## Abandoning a load (R68, R69) -/

/-- R68: the store discards the load whole; the pool's old keys are not cleared. R68 does not name
the next indices and the load-order record: that they stand until the next BEGIN_LOAD is the model's
choice (assumption 40). -/
def MoveStore.discard (st : MoveStore) : MoveStore :=
  { st with
    phase := .empty, header := none, axisSetups := Vector.ofFn fun _ => none
    levelSetups := Vector.ofFn fun _ => none, cueSetup := none
    blockStarts := Vector.ofFn fun _ => none, cueList := [], length := none, commit := none }

/-- The reply to a COMMIT_LOAD refused for a fault of the load (R194). -/
def State.refuseCommit (c : Commit) (reason : RefusalReason) (list : ListName)
    (index : Option Nat) (s : State) : State :=
  s.offer (.new 5 s.stationField 7
    (replyHead c.requester .refused reason ++ bytesOf list.code 1 ++
      bytesOf (index.getD 65535) 2) .reply)

/-- The node has left LOADING with the load unfinished (R69). -/
def State.abandonLoad (s : State) : State :=
  match s.store.phase with
  | .loading => s.onStore MoveStore.discard
  | .validating =>
    let cleared := s.onStore MoveStore.discard
    match s.store.commit with
    | some c => cleared.refuseCommit c .abandoned .none none
    | none => cleared
  | .empty | .valid => s

/-! ## STOP_NOW (R128) -/

/-- Step output stops at once: every plan is abandoned, every hold target becomes the commanded
position, and the rig is off-path (R128, R143). -/
def State.stopAxes (s : State) : State :=
  ((s.onAxes fun x => { x with plan := none }).holdAtCommanded).offPath

/-- STOPPED, with no slew left. -/
def State.enterStopped (s : State) : State :=
  (s.onEngine fun e => { e with slew := none }).enterNode .stopped

/-- A STOP_NOW disposition by node state (R128). -/
def State.stopNow (c : Cause) (s : State) : State :=
  let t := s.stopAxes
  match s.engine.nodeState with
  | .running | .halting =>
    let t := match s.engine.halt.rampStart with
      | some _ => t
      | none => t.offerHalt s.engine.ownRampStart c.byte
    ((t.registerEnd .stopped (some ⟨c.byte, s.ownNumber⟩)).endWatch).enterStopped
  | .pending => ((t.offerDecline s.passStart .notArmed).note .disarmed).enterStopped
  | .armed => ((t.offerGenericHalt c.byte).note .disarmed).enterStopped
  | .idle | .slewing | .returning | .halted | .ended => (t.offerGenericHalt c.byte).enterStopped
  | .loading => (t.offerGenericHalt c.byte).enterStopped.abandonLoad
  | .stopped => t
  | .settling | .excluded => t.onRoster fun r => { r with resume := .stopped }

/-! ## Raising a cause (R187) -/

/-- Steps 1 and 2 of R187. -/
def State.latch (c : Cause) (axis : Option (Fin 4)) (station : Option Nat) (s : State) : State :=
  s.onSup (Supervision.latch c axis station)

/-- A cause is raised: flag, origin, disposition (R187). -/
def State.raise (c : Cause) (axis : Option (Fin 4)) (station : Option Nat) (s : State) : State :=
  let s := s.latch c axis station
  match s.sup.disposition c with
  | .warn => s
  | .haltRig => s.haltRig c
  | .stopNow => s.stopNow c

/-- LINE_FAULT, raised when TX_OFF or LINE_STUCK becomes live in a pass (R115). -/
def State.raiseLineFault (s : State) : State :=
  if s.engine.nodeState.inPass then s.raise .lineFault none none else s

/-! ## What an evaluation raises (R81, R83) -/

/-- The arithmetic exception record is written (R83). -/
def State.writeException (x : ExceptionRecord) (s : State) : State :=
  s.onSup fun u => { u with exception := some x }

/-- `n` more free values have been read. -/
def State.spendFree (n : Nat) (s : State) : State := { s with free := s.free + n }

/-- The exception record of an evaluation: the first one stays (R83). Beyond the last key there is no
segment to name, and the key index is a free value (assumption 20). -/
def State.recordException (code : ExceptionCode) (a : Fin 4) (key : Option Nat) (occ : Occasion)
    (tick : Nat) (s : State) : State :=
  if s.sup.exception.isNone then
    match key with
    | some k => s.writeException ⟨code, a, k, occ, tick⟩
    | none =>
      (s.writeException ⟨code, a, (Config.freeKeyIndex s.free).toNat, occ, tick⟩).spendFree 1
  else s

/-- R83: one arithmetic exception. -/
def State.arithException (code : ExceptionCode) (a : Fin 4) (key : Option Nat) (occ : Occasion)
    (tick : Nat) (s : State) : State :=
  ((s.raise .arithOverflow none none).recordException code a key occ tick).onSup fun u =>
    { u with exceptionCount := bump8 u.exceptionCount }

/-- What one axis's evaluation raises, in the order of R73. -/
def State.raiseAxisEval (a : Fin 4) (ev : AxisEval) (occ : Occasion) (tick : Nat)
    (s : State) : State :=
  let s := if ev.overflowEval then s.arithException .overflowEval a ev.keyIndex occ tick else s
  let s := if ev.overflowScale then s.arithException .overflowScale a ev.keyIndex occ tick else s
  if ev.clamped then s.raise .softLimitClamp (some a) none else s

/-- What an evaluation of the axes raises, the earlier axis first (R73). -/
def State.raiseEval (evs : Vector (Option AxisEval) 4) (occ : Occasion) (tick : Nat)
    (s : State) : State :=
  axisOrder.foldl (fun s a =>
    match evs[a] with
    | some ev => s.raiseAxisEval a ev occ tick
    | none => s) s

end Sys2Proof.Machine
end

