-- ==== Sys2Proof/Machine/Axis.lean ====
section
/-! DEFINITION. The axis channels' shared operations (chapter 8): taking a target, planning its
pulses, the spacings of edges, the following check, and captures with their midpoints. -/

namespace Sys2Proof.Machine

/-! ## Outputs and spacings (R133) -/

/-- The DIR level of a direction under an invert (R133). -/
def dirLevel (increasing invert : Bool) : Bool := increasing != invert

/-- q_min for a pulse width (R133). -/
def minSpacing (pulseWidth : Nat) : Nat := max 100 (2 * pulseWidth)

/-- A DIR change that is due is made, unless STEP is high (R133, direction hold). -/
def AxisChannel.settleDir (now : Nat) (x : AxisChannel) : AxisChannel :=
  let level := dirLevel x.increasing x.setup.invert
  if x.stepHigh || x.dirHigh == level then x
  else { x with dirHigh := level, lastDirChange := some now }

/-- The planned instant of the plan's next leading edge (R137). -/
def Plan.plannedEdge (p : Plan) : Nat := p.first + p.emitted * p.interval + min p.emitted p.extra

/-- The instant at which the next leading edge is driven: the planned one, or the earliest later
instant that keeps both spacings and comes after the latest pulse's trailing edge (R133); that the
first such instant is the next base clock is the model's choice (assumption 47). -/
def AxisChannel.edgeInstant (x : AxisChannel) (p : Plan) : Nat :=
  let bySpacing := match x.lastEdge with
    | some e => e + minSpacing p.pulseWidth
    | none => 0
  let byDir := match x.lastDirChange with
    | some d => d + p.dirSetup
    | none => 0
  let byPulse := match x.trailing with
    | some t => t + 1
    | none => 0
  max p.plannedEdge (max byPulse (max bySpacing byDir))

/-! ## Encoder and following (R145, R146) -/

/-- The encoder position in steps, the floor toward minus infinity (R145). -/
def AxisChannel.encoderSteps (now : Nat) (x : AxisChannel) : Int :=
  (x.encoderAt now).toInt / (x.setup.ratio : Int)

/-- The following error (R145). -/
def AxisChannel.followingError (now : Nat) (x : AxisChannel) : Int :=
  x.commandedAt now - x.encoderSteps now

/-- The following check of R146. -/
def State.followingCheck (a : Fin 4) (s : State) : State :=
  if s.engine.nodeState = .settling ∨ s.engine.nodeState = .excluded then s
  else if s.store.axisPlays a ∧ 0 < s.axes[a].setup.ratio then
    match s.store.axisSetups[a] with
    | some setup =>
      if setup.followingLimit < (s.axes[a].followingError s.now).natAbs then
        s.raise .followingError (some a) none
      else s
    | none => s
  else s

/-! ## Planning a target (R134 to R139) -/

/-- The soft range of an axis: the setup's limits in a VALID move that enables it, else the step
bound (R98, R136). -/
def MoveStore.softRange (st : MoveStore) (a : Fin 4) : Int × Int :=
  match st.axisSetups[a] with
  | some setup => if st.axisPlays a then (setup.softMin, setup.softMax)
                  else (-Config.stepBound, Config.stepBound)
  | none => (-Config.stepBound, Config.stepBound)

/-- The guard range: from the smaller of lo and c to the larger of hi and c (R136). -/
def guardTarget (range : Int × Int) (c target : Int) : Int :=
  max (min range.1 c) (min (max range.2 c) target)

/-- The plan of a guarded target as R137 forms it and R139 judges it: none when N is 0; otherwise
the plan, and whether it is a deficit plan. -/
def formPlan (now : Nat) (x : AxisChannel) (target : Int) (duration : Nat) :
    Option (Plan × Bool) :=
  let n := target - x.commanded.toInt
  if n = 0 then none
  else
    let inc := decide (0 < n)
    let turns := inc != x.increasing
    let wait := if turns then x.setup.dirSetup else 0
    let avail := duration - wait
    let count := n.natAbs
    let qmin := minSpacing x.setup.pulseWidth
    let base : Plan :=
      { increasing := inc, first := now + wait, interval := avail / count,
        extra := avail % count, total := count, emitted := 0,
        pulseWidth := x.setup.pulseWidth, dirSetup := x.setup.dirSetup }
    if avail / count < qmin then
      some ({ base with interval := qmin, extra := 0, total := avail / qmin }, true)
    else some (base, false)

/-- A plan with pulses left, or the empty plan. -/
def Plan.orEmpty (p : Plan) : Option Plan := if p.emitted < p.total then some p else none

/-- R134, step 5: the plan in progress is abandoned and the new plan takes its place; the held
direction and the DIR output follow it (R137, R140). -/
def AxisChannel.replacePlan (now : Nat) (p : Option (Plan × Bool)) (x : AxisChannel) :
    AxisChannel :=
  match p with
  | none => { x with plan := none }
  | some (plan, _) => { x with plan := plan.orEmpty, increasing := plan.increasing }.settleDir now

/-- Pulses of the plan in the given direction are removed (R141). -/
def AxisChannel.dropPulses (increasing : Bool) (x : AxisChannel) : AxisChannel :=
  match x.plan with
  | some p => if p.increasing = increasing then { x with plan := none } else x
  | none => x

/-- The pulses that inputs in force forbid are removed (R141, R142). -/
def State.suppress (a : Fin 4) (s : State) : State :=
  let s := if s.sup.driveInForce a then s.onAxis a fun x => { x with plan := none } else s
  let s := if s.sup.limitInForce a .min then s.onAxis a (.dropPulses false) else s
  if s.sup.limitInForce a .max then s.onAxis a (.dropPulses true) else s

/-- A channel is handed a target with a tick duration (R134). -/
def State.handTarget (a : Fin 4) (target : Int) (duration : Nat) (s : State) : State :=
  let s := s.followingCheck a
  if s.store.axisDisabled a then s
  else
    let x := s.axes[a]
    let guarded := guardTarget (s.store.softRange a) x.commanded.toInt target
    let plan := formPlan s.now x guarded duration
    let s := match plan with
      | some (_, true) =>
        (s.onAxis a fun x => { x with deficitTicks := bump8 x.deficitTicks }).raise
          .stepDeficit (some a) none
      | some (_, false) | none => s
    (s.onAxis a (.replacePlan s.now plan)).suppress a

/-- A target is handed and becomes the axis's hold target. -/
def State.handHeld (a : Fin 4) (target : Int) (duration : Nat) (s : State) : State :=
  (s.onEngine fun e => { e with holdTargets := e.holdTargets.set a target }).handTarget a
    target duration

/-- The commanded position differs from the hold target (R95, R101). -/
def State.owesSteps (a : Fin 4) (s : State) : Bool :=
  s.axes[a].commandedAt s.now != s.engine.holdTargets[a]

/-- The axis's remaining steps lie toward a limit input in force (R95, R126). -/
def State.heldByLimit (a : Fin 4) (s : State) : Bool :=
  let left := s.engine.holdTargets[a] - s.axes[a].commandedAt s.now
  (decide (0 < left) && s.sup.limitInForce a .max) ||
    (decide (left < 0) && s.sup.limitInForce a .min)

/-- At a slew tick an axis that owes steps is handed its hold target again (R101); one that owes
none still makes its following check (R146). -/
def State.rehand (a : Fin 4) (s : State) : State :=
  if s.owesSteps a then s.handTarget a s.engine.holdTargets[a] Config.slewTickClocks
  else s.followingCheck a

/-! ## Captures and midpoints (R147, R148) -/

/-- The capture source a channel's ratio gives (R147). -/
def AxisChannel.captureSource (x : AxisChannel) : CaptureSource :=
  if 0 < x.setup.ratio then .encoder else .commanded

/-- The capture value of a source at `now` (R147). -/
def AxisChannel.captureValue (now : Nat) (x : AxisChannel) : CaptureSource → Int
  | .encoder => (x.encoderAt now).toInt
  | .commanded => x.commandedAt now

/-- The midpoint of the frame whose open capture is held, closed at `now` by a CLOSE or by the next
OPEN (R148). -/
def AxisChannel.midpoint (now : Nat) (byClose : Bool) (x : AxisChannel) : Option Midpoint :=
  x.openCapture.map fun o =>
    { value := (o.value + x.captureValue now o.source) / 2, source := o.source, roll := o.roll,
      byClose }

/-- A new open capture for the frame with this roll count (R147). -/
def AxisChannel.openFrame (now roll : Nat) (x : AxisChannel) : AxisChannel :=
  { x with openCapture := some ⟨x.captureValue now x.captureSource, roll, x.captureSource⟩ }

/-- A re-open: this instant's capture replaces the held one (R147). R147 names its value and its
roll count; that its source follows its value is deduced (assumption 48). -/
def AxisChannel.reopenFrame (now roll : Nat) (x : AxisChannel) : AxisChannel :=
  x.openFrame now roll

/-- The midpoints that the channels form when their frames are closed now. -/
def State.midpoints (byClose : Bool) (s : State) : Vector (Option Midpoint) 4 :=
  Vector.ofFn fun a => s.axes[a].midpoint s.now byClose

/-- The deviation tolerance of an axis (R70). -/
def MoveStore.tolerance (st : MoveStore) (a : Fin 4) : Nat :=
  match st.axisSetups[a] with
  | some setup => setup.tolerance
  | none => 0

/-- One axis's midpoint reaches registration while RECORDING (R156, R158). R156 gives its first two cases no
order: a disabled axis's midpoint at pass frame 8,192 or later latches nothing (the model's choice,
assumption 53). -/
def State.takeMidpoint (frame : Nat) (a : Fin 4) (m : Midpoint) (s : State) : State :=
  if ¬ s.store.axisPlays a then s
  else if Config.bufferFrames ≤ frame then s.note .truncated
  else
    let out := (s.reg.write frame a m).compare (s.store.tolerance a) frame a m
    let s := s.onReg fun _ => out.1
    if out.2 then s.raise .grossDeviation (some a) none else s

/-- The midpoints of one frame reach registration, AXIS_0 first (R156). -/
def State.takeMidpoints (ms : Vector (Option Midpoint) 4) (s : State) : State :=
  match s.reg.recording, s.reg.openFrame with
  | true, some frame =>
    if axisOrder.all fun a => ms[a].isNone then s
    else
      let fits := frame < Config.bufferFrames
      let s := if fits then s.onReg (.clearRow frame) else s
      let s := axisOrder.foldl (fun s a =>
        match ms[a] with
        | some m => s.takeMidpoint frame a m
        | none => s) s
      if fits then s.onReg (.frameRecorded frame) else s
  | _, _ => s

/-- OPEN at a counted mark (R50, R147): each channel closes the frame it holds and takes the open
capture of the new one. -/
def State.exposureOpen (origin : FrameOrigin) (s : State) : State :=
  let ms := s.midpoints false
  let s := s.onClock fun c => { c with closePending := origin == .real }
  let s := s.onAxes (.openFrame s.now s.clock.roll)
  s.takeMidpoints ms

/-- OPEN as a re-open at an absorbed mark (R50, R147). -/
def State.exposureReopen (s : State) : State :=
  (s.onClock fun c => { c with closePending := true }).onAxes
    (.reopenFrame s.now s.clock.roll)

/-- CLOSE (R50, R147). -/
def State.exposureClose (s : State) : State :=
  let ms := s.midpoints true
  let s := s.onClock fun c => { c with closePending := false }
  let s := s.onAxes fun x => { x with openCapture := none }
  s.takeMidpoints ms

end Sys2Proof.Machine
end

