-- ==== Sys2Proof/Machine/PassTick.lean ====
section
/-! DEFINITION. The pass tick (R46, R108, R124): move time in RUNNING and on the halt ramp, the
evaluation and its hand-overs, the roster's missing-report checks, the ends of a pass, and the
frame clock's issue of ticks with the catch-up of R47. -/

namespace Sys2Proof.Machine

/-! ## Reports and checks due on a tick (R32, R112) -/

/-- Tick n is 16 p + 4 + (station mod 8) for a pass frame p with p mod k = 0 (R112). -/
def reportTick (station interval n : Nat) : Bool :=
  let offset := 4 + station % 8
  decide (offset ≤ n) && (n - offset) % 16 == 0 && (n - offset) / 16 % interval == 0

/-- The same instants from pass frame k on, at which a missing report is looked for (R32). -/
def checkTick (station interval n : Nat) : Bool :=
  reportTick station interval n && decide (interval ≤ (n - (4 + station % 8)) / 16)

/-- The missing-report check of one watched entry; true when PEER_ABSENT is raised (R32). -/
def RosterEntry.missingCheck (e : RosterEntry) : RosterEntry × Bool :=
  if e.heard then ({ e with heard := false }, false)
  else if 2 ≤ e.missingRun + 1 then
    ({ e with missingRun := 2, watched := false }, true)
  else ({ e with missingRun := e.missingRun + 1 }, false)

/-- Whether the entry at place `i` is checked at tick n. -/
def RosterEntry.checkedAt (e : RosterEntry) (i interval n : Nat) : Bool :=
  e.watched && checkTick i interval n

/-- The missing-report checks of a pass tick (R32); the first place of the list is `i`. -/
def missingChecks (interval n : Nat) : Nat → List RosterEntry → List RosterEntry × List Nat
  | _, [] => ([], [])
  | i, e :: es =>
    let (es', out) := missingChecks interval n (i + 1) es
    if e.checkedAt i interval n then
      let (e', absent) := e.missingCheck
      (e' :: es', if absent then i :: out else out)
    else (e :: es', out)

/-- The checks of the tick just taken, raising PEER_ABSENT for each participant found missing. R32
gives several found on one tick no order: the lower station first is the model's (assumption 39). -/
def State.checkMissing (s : State) : State :=
  match s.engine.params with
  | some p =>
    let out := missingChecks p.interval s.engine.tick 0 s.roster.table
    out.2.foldl (fun s i => s.raise .peerAbsent none (some i))
      (s.onRoster fun r => { r with table := out.1 })
  | none => s

/-- A REPORT is offered if the tick is a report tick (R112). -/
def State.reportIfDue (s : State) : State :=
  match s.engine.params with
  | some p => if reportTick s.ownNumber p.interval s.engine.tick then s.offerReport else s
  | none => s

/-! ## Move time (R72, R124) -/

/-- T in RUNNING: the smaller of n × r and T_end (R72). -/
def runningTime (n rate tEnd : Nat) : Nat := min (n * rate) tEnd

/-- The per-tick advance of the halt ramp (R124). -/
def rampRate (rate haltLength j : Nat) : Nat := rate * (haltLength - j) / haltLength

/-- T on a ramp tick, clipped at T_end (R124). -/
def rampTime (t rate haltLength j tEnd : Nat) : Nat := min (t + rampRate rate haltLength j) tEnd

/-! ## The ends of a pass (R109, R125) -/

/-- A pass ends ENDED: a held ramp start is discarded (R109). -/
def State.endPassEnded (p : PassParams) (s : State) : State :=
  let s := s.onPathAt s.store.tEnd p.scale
  let s := (s.registerEnd .ended none).endWatch
  let s := s.onEngine fun e => { e with halt := { e.halt with rampStart := none, cause := none } }
  s.enterNode .ended

/-- A pass ends HALTED (R125). -/
def State.endPassHalted (p : PassParams) (s : State) : State :=
  let s := s.onPathAt s.engine.moveTime p.scale
  ((s.registerEnd .halted s.engine.halt.cause).endWatch).enterNode .halted

/-! ## The work of one tick (R108) -/

/-- Steps 3 to 5 of R108 at the T just formed: the evaluation and what it raises, the targets with
the tick's duration, the level values on index 0, and the crossing entries. -/
def State.tickWork (p : PassParams) (index duration : Nat) (s : State) : State :=
  let t := s.engine.moveTime
  let evs := s.store.evalAxes t p.scale
  let s := s.raiseEval evs .pass s.engine.tick
  let s := axisOrder.foldl (fun s a =>
    match evs[a] with
    | some ev => s.handHeld a ev.target duration
    | none => s) s
  let s := if index = 0 then s.evaluateLevels t else s
  s.applyEntries (s.store.crossings s.engine.prevTime t)

/-- Step 1 of R108 and the record of the tick's duration: the first tick of the pass is n = 0. -/
def Engine.takeTick (duration : Nat) (e : Engine) : Engine :=
  { e with
    tick := if e.ticked then e.tick + 1 else e.tick
    ticked := true, tickDuration := duration
    prevTime := if e.ticked then some e.moveTime else none }

/-- A tick that advances T at the full rate (R108). -/
def State.runningTick (p : PassParams) (index duration : Nat) (s : State) : State :=
  let s := s.onEngine fun e =>
    { e with moveTime := runningTime e.tick p.rate s.store.tEnd }
  let s := s.tickWork p index duration
  if s.engine.moveTime = s.store.tEnd then s.endPassEnded p else s.reportIfDue

/-- A tick of the halt ramp (R124, R125), `ramp` being the ramp start. -/
def State.rampTick (p : PassParams) (ramp index duration : Nat) (s : State) : State :=
  let s := if s.engine.nodeState = .halting then s else s.enterNode .halting
  let s := s.onEngine fun e =>
    let j := e.tick - ramp
    { e with
      halt := { e.halt with rampIndex := j }
      moveTime := rampTime e.moveTime p.rate p.haltLength j s.store.tEnd }
  let s := s.tickWork p index duration
  if p.haltLength ≤ s.engine.halt.rampIndex ∨ s.engine.moveTime = s.store.tEnd then
    s.endPassHalted p
  else s.reportIfDue

/-- A pass tick in a pass: at the full rate up to and including the ramp start, on the ramp after
it (R108, R124); then the missing-report checks while the pass lasts (R32). -/
def State.passWork (index duration : Nat) (s : State) : State :=
  match s.engine.params with
  | some p =>
    let s := s.onEngine (Engine.takeTick duration)
    let s := match s.engine.halt.rampStart with
      | some ramp =>
        if ramp < s.engine.tick then s.rampTick p ramp index duration
        else s.runningTick p index duration
      | none => s.runningTick p index duration
    if s.engine.nodeState.inPass then s.checkMissing else s
  | none => s

/-- Pass tick `index` with its duration, in every node state: the pulses are counted down before
the tick's entries are applied (R177), and in a pass the engine takes the tick. -/
def State.takePassTick (index duration : Nat) (s : State) : State :=
  let s := s.onCues CueLine.countDown
  if s.engine.nodeState.inPass then s.passWork index duration else s

/-! ## The frame clock's issue of ticks (R46, R47) -/

/-- The clock states in which pass ticks are issued (R46). -/
def ClockState.ticking : ClockState → Bool
  | .locked | .holdover | .coasting | .localMarks => true
  | .free | .acquiring => false

/-- The tick duration, floor(P / 16) (R46). -/
def FrameClock.tickDuration (c : FrameClock) : Nat := c.period.getD 0 / 16

/-- The index of the next tick of the current frame; none after tick 15 and in a clock state that
issues none (R46, R48). -/
def FrameClock.nextTick (c : FrameClock) : Option Nat :=
  if c.state.ticking then
    match c.tickIndex with
    | none => some 0
    | some j => if j < 15 then some (j + 1) else none
  else none

/-- Tick `index` is issued (R46). -/
def State.issueTick (index : Nat) (s : State) : State :=
  (s.onClock fun c => { c with tickIndex := some index }).takePassTick index s.clock.tickDuration

/-- Issues up to `fuel` of the ending frame's unissued ticks, in index order (R47). A pass that
ends on one of them can take the clock out of ticking, which drops the rest. -/
def State.catchUp : Nat → State → State
  | 0, s => s
  | fuel + 1, s =>
    match s.clock.nextTick with
    | some j => (s.issueTick j).catchUp fuel
    | none => s

end Sys2Proof.Machine
end

