-- ==== Sys2Proof/Machine/FrameClock.lean ====
section
/-! DEFINITION. The frame clock (chapter 3): real, synthesized, coasting and local marks, the
order of a counted mark (R45), the begin of a pass at mark F (R107), falling edges, and the
deadlines. -/

namespace Sys2Proof.Machine

/-! ## The begin of a pass (R107) -/

/-- The next pass number: from 65,535 to 1 (R110). -/
def nextPassNumber (n : Nat) : Nat := if 65535 ≤ n then 1 else n + 1

/-- The watch of R30 over every participant but the own entry; `i` is the list's first place. -/
def watchOthers (own : Option Nat) : Nat → List RosterEntry → List RosterEntry
  | _, [] => []
  | i, e :: es =>
    (if e.participant && own != some i then
       { e with watched := true, missingRun := 0, misalignedRun := 0, heard := false }
     else e) :: watchOthers own (i + 1) es

/-- A HALT of an earlier pass that is still queued is not the new record's own HALT (R118). -/
def TxEntry.forgetHalt (e : TxEntry) : TxEntry :=
  match e.owner with
  | .halt true => { e with owner := .halt false }
  | _ => e

/-- The node enters RUNNING at mark F (R107, R118, R154). -/
def State.beginPass (p : PassParams) (s : State) : State :=
  let s := s.onEngine fun e => { e with
    tick := 0, moveTime := 0, prevTime := none, ticked := false
    passNumber := nextPassNumber e.passNumber
    halt := { rampStart := none, cause := none, ownHalt := none, rampIndex := 0, late := false } }
  let s := s.onLine fun l => { l with txQueue := l.txQueue.map TxEntry.forgetHalt }
  let s := s.onRoster fun r => { r with table := watchOthers r.ownPosition 0 r.table }
  let s := s.onReg (.passBegun s.engine.passNumber p.startFrame p.rate p.scale)
  s.enterNode .running

/-- The clock states in which mark F begins a pass and arm condition 4 holds (R91, R107). -/
def ClockState.follows : ClockState → Bool
  | .locked | .localMarks => true
  | .free | .acquiring | .holdover | .coasting => false

/-- The engine takes a counted mark: registration's frame advances in a pass (R155), and mark F
begins the pass of a PENDING node (R107). -/
def State.engineMark (s : State) : State :=
  if s.engine.nodeState.inPass then s.onReg Registration.frameAdvanced
  else
    match s.engine.nodeState, s.engine.params with
    | .pending, some p =>
      if s.clock.roll = p.startFrame ∧ s.clock.state.follows then s.beginPass p else s
    | _, _ => s

/-! ## Counted marks (R45) -/

/-- The roll count at a counted mark (R45). -/
def nextRoll (origin : FrameOrigin) (rollHigh : Bool) (roll : Nat) : Nat :=
  if origin = .real ∧ rollHigh then 0 else min Config.rollTop (roll + 1)

/-- Steps 2 to 6 of R45. `adopt` is the clock state that the mark brings about, with what that
raises and the arm judgement; it stands before step 5. -/
def State.countMark (origin : FrameOrigin) (rollHigh : Bool) (adopt : State → State)
    (s : State) : State :=
  let s := s.onClock fun c =>
    { c with roll := nextRoll origin rollHigh c.roll, tickIndex := none }
  let s := adopt (s.exposureOpen origin)
  let s := s.engineMark
  if s.clock.state.ticking then s.issueTick 0 else s

/-! ## Measured periods (R36, R37) -/

/-- A measured period lies within the lockable range. -/
def lockable (m : Nat) : Bool := Config.minPeriod ≤ m && m ≤ Config.maxPeriod

/-- RANGE_HIGH and RANGE_LOW after a measured period (R37). -/
def FrameClock.judgeRange (m : Nat) (c : FrameClock) : FrameClock :=
  { c with rangeHigh := decide (m < Config.minPeriod), rangeLow := decide (Config.maxPeriod < m) }

/-- The absolute difference of two periods. -/
def absDiff (a b : Nat) : Nat := (a - b) + (b - a)

/-- The consistent run and the previous period after a measured period (R36, R37). -/
def FrameClock.judgeRun (m : Nat) (c : FrameClock) : FrameClock :=
  if lockable m then
    match c.previousPeriod with
    | some p =>
      { c with
        consistentRun := if absDiff m p ≤ p / 256 then c.consistentRun + 1 else 1
        previousPeriod := some m }
    | none => { c with consistentRun := 1, previousPeriod := some m }
  else { c with consistentRun := 0, previousPeriod := none }

/-- The clock enters ACQUIRING, which ends every pending pulse (R178). -/
def State.enterAcquiring (f : FrameClock → FrameClock) (s : State) : State :=
  (s.onClock fun c => { f c with state := .acquiring }).endPulses.judgeArm

/-! ## Real marks by clock state -/

/-- A real mark in FREE (R35), `m` being its instant. -/
def State.markFree (m : Nat) (roll : Bool) (s : State) : State :=
  s.countMark .real roll (State.enterAcquiring fun c =>
    { c with measuringBase := some m, consistentRun := 0, previousPeriod := none })

/-- A real mark in ACQUIRING (R36, R37): the fourth consistent period locks the clock. -/
def State.adoptAcquired (m : Nat) (s : State) : State :=
  let period := m - s.clock.measuringBase.getD m
  let c : FrameClock :=
    { (s.clock.judgeRange period).judgeRun period with measuringBase := some m }
  if 4 ≤ c.consistentRun then
    ((s.onClock fun _ => { c with
      state := .locked, period := some period, timingBase := some m, origin := .real,
      missedRun := 0 }).note .lockedEvent).judgeArm
  else s.onClock fun _ => c

/-- A tracked mark in LOCKED (R38). -/
def State.adoptTracked (m period : Nat) (s : State) : State :=
  s.onClock fun c => { c.judgeRange period with
    period := some period, timingBase := some m, measuringBase := some m, origin := .real,
    missedRun := 0 }

/-- A tracking failure outside a pass (R39): the mark is counted and measuring begins anew. -/
def State.unlockOutside (m period : Nat) (roll : Bool) (s : State) : State :=
  s.countMark .real roll (State.enterAcquiring fun c =>
    { ({ c with previousPeriod := none, consistentRun := 0 } : FrameClock).judgeRun period with
      measuringBase := some m, period := none, tickIndex := none })

/-- A tracking failure (R39). In a pass the clock coasts and MARK_LOST is raised. -/
def State.trackingFailure (m period : Nat) (roll : Bool) (s : State) : State :=
  let s := (s.onClock (.judgeRange period)).note .unlock
  if s.engine.nodeState.inPass then
    (s.onClock fun c => { c with state := .coasting }).raise .markLost none none
  else s.unlockOutside m period roll

/-- A real mark in LOCKED (R38). -/
def State.markLocked (m : Nat) (roll : Bool) (s : State) : State :=
  let p := s.clock.period.getD 0
  if m - s.clock.timingBase.getD m < p / 2 then s.count .spuriousMarks
  else
    let period := m - s.clock.measuringBase.getD m
    if lockable period ∧ absDiff period p ≤ p / 8 then
      (s.catchUp 16).countMark .real roll (State.adoptTracked m period)
    else s.trackingFailure m period roll

/-- The clock enters LOCKED from HOLDOVER, timed from instant `m` (R41). -/
def State.relock (m : Nat) (origin : FrameOrigin) (s : State) : State :=
  (s.onClock fun c => { c with
    state := .locked, timingBase := some m, measuringBase := some m, origin, missedRun := 0 })

/-- The first real mark in HOLDOVER (R41): absorbed, or counted. -/
def State.markHoldover (m : Nat) (roll : Bool) (s : State) : State :=
  let p := s.clock.period.getD 0
  if m - s.clock.timingBase.getD m < p / 2 then
    let s := s.onClock fun c => if roll then { c with roll := 0 } else c
    ((s.relock m .absorbed).exposureReopen).judgeArm
  else (s.catchUp 16).countMark .real roll fun s => (s.relock m .real).judgeArm

/-- A SHUTTER rising edge, classed by clock state (R33): every one restarts the mark-quiet time. -/
def State.realMark (roll : Bool) (s : State) : State :=
  let m := s.now
  let s := s.onClock fun c => { c with lastMark := m }
  match s.clock.state with
  | .free => s.markFree m roll
  | .acquiring => s.countMark .real roll (State.adoptAcquired m)
  | .locked => s.markLocked m roll
  | .holdover => s.markHoldover m roll
  | .coasting => s
  | .localMarks =>
    if s.engine.nodeState.holdsLocal then s.count .spuriousMarks
    else s.enterFree.markFree m roll

/-! ## Marks the clock makes -/

/-- A synthesized mark of the holdover rule, at instant `d` (R40, R42). -/
def State.adoptSynthesized (d : Nat) (s : State) : State :=
  let s := (s.onClock fun c => { c with
    timingBase := some d, origin := .synthesized, missedRun := c.missedRun + 1 }).count
    .missedMarks
  if s.clock.missedRun < 3 then (s.onClock fun c => { c with state := .holdover }).judgeArm
  else
    let s := s.raise .markLost none none
    if s.engine.nodeState.inPass then s.onClock fun c => { c with state := .coasting }
    else s.enterFree.judgeArm

/-- The holdover deadline (R40). -/
def FrameClock.holdoverAt (c : FrameClock) : Option Nat :=
  match c.state, c.timingBase, c.period with
  | .locked, some b, some p | .holdover, some b, some p => some (b + 3 * p / 2)
  | _, _, _ => none

/-- The next mark of a clock that makes its own: COASTING (R43) or LOCAL (R44). Where the tracking failure
that began COASTING came later than P after the timing base, this instant has passed already, and the
mark comes at once (the model's choice, assumption 52). -/
def FrameClock.ownMarkAt (state : ClockState) (c : FrameClock) : Option Nat :=
  match c.timingBase, c.period with
  | some b, some p => if c.state = state then some (b + p) else none
  | _, _ => none

/-- The end of the ACQUIRING wait (R37). -/
def FrameClock.timeoutAt (c : FrameClock) : Option Nat :=
  match c.state, c.measuringBase with
  | .acquiring, some b => some (b + Config.maxPeriod)
  | _, _ => none

/-- The instant of the next paced pass tick and its index (R46). -/
def FrameClock.tickAt (c : FrameClock) : Option (Nat × Nat) :=
  match c.nextTick, c.timingBase, c.period with
  | some j, some b, some p => some (b + j * p / 16, j)
  | _, _, _ => none

/-- The entry into LOCAL: its instant, when its other conditions hold (R44). -/
def State.localEntryAt (s : State) : Option Nat :=
  if s.clock.state = .free ∧ s.roster.aloneParticipant ∧ s.store.phase = .valid then
    some (s.clock.lastMark + Config.markQuietClocks)
  else none

/-- P in LOCAL: floor(50,000,000 / reference frame rate) (R44). -/
def MoveStore.localPeriod (st : MoveStore) : Nat :=
  match st.header with
  | some h => 50000000 / h.refRate
  | none => 0

/-- A mark that the clock makes for itself in COASTING or LOCAL, at instant `d`; nothing when the
catch-up has ended the pass and taken the clock out of that state. -/
def State.ownMark (state : ClockState) (origin : FrameOrigin) (d : Nat) (s : State) : State :=
  let s := s.catchUp 16
  if s.clock.state = state then
    s.countMark origin false (State.onClock fun c => { c with timingBase := some d, origin })
  else s

end Sys2Proof.Machine
end

