-- ==== Sys2Proof/Machine/Slew.lean ====
section
/-! DEFINITION. Slew ticks (R94 to R101, R126, R127): the slew rule, axis slews, the return, their
decelerating forms, and hold targets handed again. -/

namespace Sys2Proof.Machine

/-! ## The slew rule (R94) and its decelerating form (R126) -/

/-- The remaining distance. -/
def Quantity.distance (q : Quantity) : Nat := (q.dest - q.value).natAbs

/-- Moves the value toward the destination by `n`, at most the distance left, at velocity `v`. -/
def Quantity.moveBy (v : Nat) (q : Quantity) : Quantity :=
  let n := min v q.distance
  { q with
    value := if q.value ≤ q.dest then q.value + n else q.value - n
    velocity := if n = q.distance then 0 else v }

/-- One slew tick of the slew rule (R94). -/
def Quantity.advance (q : Quantity) : Quantity :=
  if q.distance = 0 then q
  else q.moveBy (min (q.velocity + q.accel)
    (min q.speedLimit (isqrt (2 * q.accel * q.distance))))

/-- One slew tick of the decelerating form (R126). -/
def Quantity.brake (q : Quantity) : Quantity :=
  if q.distance = 0 ∨ q.velocity = 0 then q
  else q.moveBy (min (q.velocity - q.accel) (isqrt (2 * q.accel * q.distance)))

/-- The step target of a demand: rounded toward the slew's start (R95). -/
def Quantity.stepTarget (q : Quantity) : Int :=
  if q.start ≤ q.dest then q.value / 256 else -(-q.value / 256)

/-! ## Axis slews (R95, R126) -/

/-- Every axis in the list satisfies a test of the state. -/
def State.everyAxis (p : Fin 4 → Bool) (test : Fin 4 → State → Bool) (s : State) : Bool :=
  axisOrder.all fun a => !p a || test a s

/-- The commanded position equals the hold target, or the remaining steps lie toward a limit input
in force. -/
def State.settled (a : Fin 4) (s : State) : Bool := !s.owesSteps a || s.heldByLimit a

/-- Every channel makes its following check (R146). -/
def State.followingChecks (s : State) : State := axisOrder.foldl (fun s a => s.followingCheck a) s

/-- A slew that cannot complete comes to rest: IDLE, off-path (R95, R126). -/
def State.restAxes (s : State) : State :=
  ((s.holdAtCommanded).onEngine fun e => { e with slew := none }).enterNode .idle

/-- A CUE, SEEK or JOG completes (R95). -/
def State.completeAxes (kind : AxisSlewKind) (tPark scale : Nat) (s : State) : State :=
  let s := s.onEngine fun e => { e with slew := none }
  match kind with
  | .cue | .seek => ((s.onPathAt tPark scale).evaluateLevels tPark).enterArmedOrIdle
  | .jog => s.enterNode .idle

/-- Moves each quantity of an axis slew by one tick. -/
def moveAll (f : Quantity → Quantity) (moved : Vector (Option Quantity) 4) :
    Vector (Option Quantity) 4 :=
  Vector.ofFn fun a => moved[a].map f

/-- The hold target an axis has after its quantity's tick: its step target where `p` says the
quantity gives one, the one it held otherwise. -/
def State.formTargets (p : Fin 4 → Bool) (moved : Vector (Option Quantity) 4) (s : State) :
    State :=
  s.onEngine fun e => { e with holdTargets := Vector.ofFn fun a =>
    match moved[a] with
    | some q => if p a then q.stepTarget else e.holdTargets[a]
    | none => e.holdTargets[a] }

/-- Hands each axis: a new target where `p` says so, its hold target again where it owes steps. -/
def State.handAxes (p : Fin 4 → Bool) (s : State) : State :=
  axisOrder.foldl (fun s a =>
    if p a then s.handTarget a s.engine.holdTargets[a] Config.slewTickClocks else s.rehand a) s

/-- A slew tick of an axis slew that no halt has taken (R95). The step target is formed on every tick,
so with every demand at its destination from the taking on the destination is the hold target
(assumption 54). Every d is read before R94 moves the demand: DESIGN CHOICE (assumption 58). The tick that
completes the slew hands nothing, and one that brings it to rest against a limit input hands first, as
R126 does. -/
def State.axisSlewTick (kind : AxisSlewKind) (tPark scale : Nat)
    (moved : Vector (Option Quantity) 4) (s : State) : State :=
  let inSlew := fun a => moved[a].isSome
  if axisOrder.all fun a => (moved[a].map Quantity.distance).getD 0 == 0 then
    let s := s.formTargets inSlew moved
    if s.everyAxis inSlew fun a s => !s.owesSteps a then
      (s.completeAxes kind tPark scale).followingChecks
    else
      let s := s.handAxes fun _ => false
      if s.everyAxis inSlew State.settled then s.restAxes else s
  else
    let moved := moveAll Quantity.advance moved
    let s := s.onEngine fun e => { e with slew := some (.axes kind tPark scale moved false) }
    (s.formTargets inSlew moved).handAxes inSlew

/-- A slew tick of a decelerating axis slew (R126): the quantities move, each axis is handed, and then
the rest is judged. -/
def State.brakeSlewTick (kind : AxisSlewKind) (tPark scale : Nat)
    (moved : Vector (Option Quantity) 4) (s : State) : State :=
  let next := moveAll Quantity.brake moved
  let changed := fun a => moved[a].map Quantity.value != next[a].map Quantity.value
  let s := s.onEngine fun e => { e with slew := some (.axes kind tPark scale next true) }
  let s := (s.formTargets changed next).handAxes changed
  if s.everyAxis (fun a => next[a].isSome) fun a s =>
      (next[a].map Quantity.velocity).getD 0 == 0 && s.settled a then s.restAxes
  else s

/-! ## The return (R100, R127) -/

/-- Every enabled axis satisfies a test of the state. -/
def State.everyEnabled (test : Fin 4 → State → Bool) (s : State) : Bool :=
  s.everyAxis s.store.axisPlays test

/-- The return completes: on-path at 0, ARMED or IDLE (R100). -/
def State.completeReturn (s : State) : State :=
  ((s.onPathAt 0 s.engine.path.scale).onEngine fun e => { e with slew := none }).enterArmedOrIdle

/-- A halted return comes to rest: on-path at T, HALTED (R127). -/
def State.restReturn (s : State) : State :=
  let t := s.engine.moveTime
  let s := s.holdAtCommanded.onPathAt t s.engine.path.scale
  ((s.evaluateLevels t).onEngine fun e => { e with slew := none }).enterNode .halted

/-- The return with T at 0: it completes, comes to rest at a limit, or neither yet (R100). -/
def State.finishReturn (s : State) : Option State :=
  if s.everyEnabled fun a s => !s.owesSteps a then some s.completeReturn
  else if s.everyEnabled State.settled then some s.restReturn
  else none

/-- The evaluation of a return's slew tick and its hand-overs (R100, R127). -/
def State.returnWork (t count : Nat) (s : State) : State :=
  let evs := s.store.evalAxes t s.engine.path.scale
  let s := s.raiseEval evs .slew count
  axisOrder.foldl (fun s a =>
    match evs[a] with
    | some ev => s.handHeld a ev.target Config.slewTickClocks
    | none => s) s

/-- The move-time quantity after its tick becomes the slew record's and T. -/
def State.setReturn (q : Quantity) (count : Nat) (decel : Bool) (s : State) : State :=
  s.onEngine fun e => { e with slew := some (.path q count decel), moveTime := q.value.toNat }

/-- A slew tick of a return that no halt has taken (R100). A halt that its own evaluation or following
check raises has turned it into a decelerating one, which the next tick judges (R127). T is read after the
move: DESIGN CHOICE (assumption 58). -/
def State.returnTick (q : Quantity) (count : Nat) (s : State) : State :=
  let count := count + 1
  if q.distance = 0 then
    let s := s.setReturn q count false
    match s.finishReturn with
    | some done => done.followingChecks
    | none => axisOrder.foldl (fun s a => if s.store.axisPlays a then s.rehand a else s) s
  else
    let q := q.advance
    let t := q.value.toNat
    let s := (s.setReturn q count false).returnWork t count
    let s := if count % 16 = 0 ∨ q.distance = 0 then s.evaluateLevels t else s
    if q.distance = 0 ∧ s.engine.slew = some (.path q count false) then s.finishReturn.getD s else s

/-- A slew tick of a decelerating return (R127). -/
def State.brakeReturnTick (q : Quantity) (count : Nat) (s : State) : State :=
  let count := count + 1
  let q := q.brake
  let t := q.value.toNat
  let s := (s.setReturn q count true).returnWork t count
  let s := if count % 16 = 0 then s.evaluateLevels t else s
  if q.velocity = 0 ∧ s.everyEnabled State.settled then s.restReturn else s

/-! ## The slew tick by node state (R101) -/

/-- The work of a slew tick in each node state (R101); in a pass it is disregarded, and in STOPPED
nothing is handed but the following check is made (R146). -/
def State.slewWork (s : State) : State :=
  match s.engine.nodeState with
  | .running | .halting => s
  | .stopped => s.followingChecks
  | .slewing =>
    match s.engine.slew with
    | some (.axes kind tPark scale moved false) => s.axisSlewTick kind tPark scale moved
    | some (.axes kind tPark scale moved true) => s.brakeSlewTick kind tPark scale moved
    | some (.path ..) | none => s
  | .returning =>
    match s.engine.slew with
    | some (.path q count false) => s.returnTick q count
    | some (.path q count true) => s.brakeReturnTick q count
    | some (.axes ..) | none => s
  | .idle | .armed | .pending | .halted | .ended | .loading | .settling | .excluded =>
    s.handAxes fun _ => false

end Sys2Proof.Machine
end

