-- ==== Sys2Proof/Machine/Roster.lean ====
section
/-! DEFINITION. The roster's own work (chapter 2): insertion, the roster check, closing, reopening,
and the watch of a pass over its participants' reports. -/

namespace Sys2Proof.Machine

/-! ## Settling (R21) -/

/-- Sorted order of the table: rank, then serial (R21). -/
def RosterEntry.before (a b : RosterEntry) : Bool :=
  a.rank.toNat < b.rank.toNat || (a.rank == b.rank && a.serial.toNat < b.serial.toNat)

/-- A new entry is placed in sorted order. -/
def insertEntry (e : RosterEntry) : List RosterEntry → List RosterEntry
  | [] => [e]
  | x :: xs => if e.before x then e :: x :: xs else x :: insertEntry e xs

/-- The entry that an ANNOUNCE makes: its participant value is no for rank 0. -/
def RosterEntry.announced (serial : Word32) (rank : BitVec 3) (participant : Bool) :
    RosterEntry :=
  { RosterEntry.own serial (participant && rank != 0) with rank }

/-- The place of a serial in a table. -/
def placeOf (serial : Word32) (table : List RosterEntry) : Option Nat :=
  table.findIdx? fun e => e.serial == serial

/-- R21: an announced entry while SETTLING. A full table places the newcomer and loses its last
entry; an own position lost that way stays BEYOND until the roster is started again. -/
def Roster.hear (own : Word32) (now : Nat) (e : RosterEntry) (r : Roster) : Roster :=
  let r := { r with quietStart := now }
  if r.table.any fun x => x.serial == e.serial then r
  else
    let grown := insertEntry e r.table
    let full := Config.rosterCapacity ≤ r.table.length
    let table := if full then grown.dropLast else grown
    { r with
      table
      ownPosition := r.ownPosition.bind fun _ => placeOf own table
      beyondCount := if full then bump8 r.beyondCount else r.beyondCount }

/-! ## Closing (R22, R23) -/

/-- The bits of a serial, most significant byte first. -/
def serialBits (e : RosterEntry) : List Bool := bitsMsb e.serial.toNat 32

/-- The roster check: the line's CRC over the serials in order (R23). -/
def Roster.check (r : Roster) : BitVec 16 := crc16 (r.table.flatMap serialBits)

/-- The DIGEST of the table as it stands (R23, 12.1). -/
def State.offerDigest (s : State) : State :=
  s.offer (.new 3 s.stationField 1
    (bytesOf s.roster.table.length 1 ++ bytesOf s.roster.check.toNat 2) .digest)

/-- The node takes its resume state at the roster's closing: IDLE as a completion that judges the
arm conditions at its own instant (R92), STOPPED with its hold targets (R101). -/
def State.enterResume (s : State) : State :=
  match s.roster.resume with
  | .idle => s.enterArmedOrIdle
  | .stopped => s.holdAtCommanded.enterNode .stopped
  | ns => s.enterNode ns

/-- The roster closes and hands its outcome to the playback engine (R23). -/
def State.closeRoster (s : State) : State :=
  let s := s.onRoster fun r => { r with phase := .closed, schedule := .done }
  match s.roster.ownPosition with
  | some _ => s.enterResume.offerDigest
  | none => (s.enterNode .excluded).emptyTx fun _ => false

/-- The second condition of closing (R22): three announces sent, or TX_OFF live. -/
def State.announcesDone (s : State) : Bool := 3 ≤ s.roster.announceCount || s.line.txOff

/-- R22 where its second condition is the one met last: the roster closes at once when the quiet
timer has already reached 300 ms. -/
def State.closeIfQuiet (s : State) : State :=
  if s.roster.phase = .settling ∧ s.announcesDone ∧
      s.roster.quietStart + Config.quietClocks ≤ s.now then s.closeRoster
  else s

/-! ## Reopening (R27) -/

/-- The roster starts again as R19 states, with the differences R27 lists. -/
def Roster.reopened (serial : Word32) (participant idle : Bool) (now : Nat) (r : Roster) :
    Roster :=
  let fresh := { Roster.reset serial participant with
    resume := r.resume, announceSeq := r.announceSeq, quietStart := now }
  if idle then drawAnnounceDelay now fresh else fresh

/-- A reopening keeps STOPPED as the resume state (R129), also where a STOP_NOW fell after R26 had set
another one; that any other resume state stays the one of the hand-over is deduced (assumption 50). -/
def State.keepStopped (s : State) : State :=
  s.onRoster fun r =>
    { r with resume := if s.engine.nodeState = .stopped then .stopped else r.resume }

/-- The reopening: both queues are emptied, the roster starts again, and the node enters SETTLING.
What the node was doing ends with its state: a slew record is dropped, and a load is abandoned. A
waiting STATION_RESET reply is flushed with the rest, which is the model's choice (assumption 37), and so
is that a PENDING node offers no DECLINE (assumption 57). -/
def State.reopen (s : State) : State :=
  let s := s.keepStopped.emptyTx fun _ => false
  let s := s.onLine fun l => { l with requestQueue := [], reopenDue := false }
  let s := s.onRoster (.reopened s.serial s.participant (s.line.state == .idle) s.now)
  let s := s.onEngine fun e => { e with slew := none }
  (s.enterNode .settling).abandonLoad

/-! ## Reports and the watch (R28, R30, R31) -/

/-- The fields of a REPORT that the roster reads (12.1). -/
structure ReportFields where
  state : BitVec 4
  roll : Nat
  start : Nat
  deriving DecidableEq, Repr

def readReport (p : List Byte) : ReportFields :=
  let v := fieldAt p 1 5
  { state := BitVec.ofNat 4 (byteAt p 0), roll := v / 2 ^ 20 % 2 ^ 20, start := v % 2 ^ 20 }

/-- R28, steps 1 to 3. That a state code which names no node state is recorded as it comes is the
model's choice (assumption 51). -/
def RosterEntry.reported (now : Nat) (code : BitVec 4) (e : RosterEntry) : RosterEntry :=
  { e with lastState := some code, lastReport := some now, missingRun := 0, heard := true }

/-- An entry of the table becomes `f` of it. -/
def State.onEntry (i : Nat) (f : RosterEntry → RosterEntry) (s : State) : State :=
  s.onRoster fun r => { r with table := r.table.modify i f }

/-- The tick position minus the report's stamp (R31). -/
def State.tickOffset (i roll : Nat) (s : State) : Int :=
  (16 * s.clock.roll + s.clock.tickIndex.getD 0 : Nat) - (16 * roll + 4 + i % 8 : Nat)

/-- The alignment check (R31). -/
def State.checkAlignment (i roll : Nat) (s : State) : State :=
  if 0 ≤ s.tickOffset i roll ∧ s.tickOffset i roll ≤ 8 then
    s.onEntry i fun e => { e with misalignedRun := 0 }
  else
    let run := (s.roster.table[i]?.map RosterEntry.misalignedRun).getD 0
    let s := (s.count .misaligned).onEntry i fun e => { e with misalignedRun := min 2 (run + 1) }
    if run = 1 then s.raise .frameSlip none (some i) else s

/-- What the watch does with a report's state and pass start (R30). -/
inductive WatchOutcome where
  | arrived | aligned | alignedHalting | peerHalted | peerEnded | peerAbsent
  deriving DecidableEq, Repr

/-- The row of R30's table, by the state code of R192. -/
def watchOutcome (start : Nat) (f : ReportFields) : WatchOutcome :=
  if f.start ≠ start then .peerAbsent
  else
    match f.state.toNat with
    | 6 => .arrived
    | 7 => .aligned
    | 8 => .alignedHalting
    | 9 | 12 => .peerHalted
    | 10 => .peerEnded
    | _ => .peerAbsent

/-- The node is RUNNING and holds no ramp start (R30). -/
def State.unhalted (s : State) : Bool :=
  s.engine.nodeState == .running && s.engine.halt.rampStart.isNone

/-- PEER_HALTED, where the condition of R30 held as the report was classified. -/
def State.peerHalted (i : Nat) (raised : Bool) (s : State) : State :=
  if raised then s.raise .peerHalted none (some i) else s

/-- The pass watch of a report from the watched station `i` (R30). -/
def State.watch (i : Nat) (f : ReportFields) (s : State) : State :=
  let unwatched := s.onEntry i fun e => { e with watched := false }
  match watchOutcome s.passStart f with
  | .arrived => s
  | .aligned => s.checkAlignment i f.roll
  | .alignedHalting => (s.checkAlignment i f.roll).peerHalted i s.unhalted
  | .peerHalted => unwatched.peerHalted i s.unhalted
  | .peerEnded => unwatched
  | .peerAbsent => unwatched.raise .peerAbsent none (some i)

/-- R28 in a CLOSED roster. -/
def State.takeReport (i : Nat) (f : ReportFields) (s : State) : State :=
  match s.roster.table[i]? with
  | none => s
  | some e =>
    if e.rank = 0 then s
    else
      let s := s.onEntry i (.reported s.now f.state)
      if s.engine.nodeState.inPass && e.watched then s.watch i f else s

end Sys2Proof.Machine
end

