-- ==== Sys2Proof/Machine/LineEvents.lean ====
section
/-! DEFINITION. Meanings of the resets and of the line interface's events (chapter 1, R18): states
of the interface, attempts, receive findings, the emptyings, and the request queue. A command whose
event cannot occur in the present state leaves it unchanged (assumption 3). -/

namespace Sys2Proof.Machine

/-! ## Operations of the interface -/

def State.setLine (ls : LineState) (s : State) : State :=
  s.onLine fun l => { l with state := ls }

/-- The line reads `n` bits of one level before an event (assumption 7). -/
def State.readLine (dominant : Bool) (n : Nat) (s : State) : State :=
  s.onLine (LineInterface.readRun dominant n)

/-- The interface sets its output to a level (R1). -/
def State.drive (dominant : Bool) (s : State) : State :=
  s.onLine fun l => { l with outputDominant := dominant }

/-- WAIT_QUIET with a quiet count of 0: R4 states it for a form error in INTERMISSION, and that the count
begins at 0 after a form error in RECEIVING too is the model's choice (assumption 49). -/
def State.enterWaitQuiet (s : State) : State :=
  s.onLine fun l => { l with state := .waitQuiet, quietCount := 0 }

/-- The interface enters IDLE; an announce schedule that waits for it draws its delay (R20). -/
def State.enterLineIdle (s : State) : State :=
  let s := s.setLine .idle
  if s.roster.phase = .settling ∧ s.roster.schedule = .awaitIdle then
    s.onRoster (drawAnnounceDelay s.now)
  else s

/-- What an event does when the interface stands in the state the event needs. -/
def State.inLine (ls : LineState) (t : Nat) (f : State → State) (s : State) : State :=
  if s.line.state = ls then f (s.reach t) else s

/-- A telegram read without error arrives at the last bit of its end field (R4, R8). -/
def State.arrive (t : Nat) (f : State → State) (s : State) : State :=
  s.inLine .receiving t fun s =>
    f ((s.readLine false Config.endBits).setLine .intermission)

/-- A line-level telegram is acted on at its table's length only; any other counts as a form error
(R193). -/
def State.ifLength (p : List Byte) (n : Nat) (f : State → State) (s : State) : State :=
  if p.length = n then f s else s.count .formErrors

/-- R11: whether a REQUEST or LOAD with this target is taken. -/
def State.taken (target : Byte) (s : State) : Bool :=
  match s.engine.nodeState with
  | .settling => false
  | .excluded => target == 31
  | _ => target == 31 || s.roster.station == some target.toNat

/-- R11: an addressed telegram without a target is a form error, one not addressed to this node is
ignored, and any other is taken. -/
def State.ifTaken (p : List Byte) (f : Byte → List Byte → State → State) (s : State) : State :=
  match p with
  | [] => s.count .formErrors
  | target :: body => if s.taken target then f target body s else s

/-- A request joins the tail of the request queue, or is an overrun (R16). -/
def State.joinRequests (r : RequestRecord) (s : State) : State :=
  if s.line.requestQueue.length < Config.requestCapacity then
    s.onLine fun l => { l with requestQueue := l.requestQueue ++ [r] }
  else s.count .requestOverruns

/-- The emptying that a STATION_RESET brings (R15), with the REPORT that follows it (R191), also where the
node was IDLE and stays so: DESIGN CHOICE (assumption 59). Which replies it spares is assumption 37. -/
def State.resetFlush (s : State) : State :=
  let s := s.emptyTx TxEntry.isResetReply
  (s.onLine fun l => { l with requestQueue := [], flushDue := false }).offerReport

/-- The attempt's entry is marked as the one on the line (R12). -/
def markSending (q : List TxEntry) : List TxEntry :=
  updateFirst (fun e => !e.cancelled) (fun e => { e with sending := true }) q

/-- The three conditions of R4 for an own start bit, and the queue not held by LINE_STUCK (R9). -/
def State.maySend (s : State) : Bool :=
  (queueHead s.line.txQueue).isSome && !s.line.txOff && !s.line.lineStuck &&
    s.engine.nodeState != .excluded

/-- A clash is counted, and the 16th without a clean telegram makes TX_OFF live (R6, R7). -/
def State.countClash (s : State) : State :=
  let s := s.count .clashes
  let run := min 16 (s.line.clashRun + 1)
  let newly := decide (16 ≤ run) && !s.line.txOff
  let s := s.onLine fun l => { l with clashRun := run, txOff := l.txOff || newly }
  if newly then
    let s := s.onRoster fun r =>
      { r with schedule := if r.phase = .settling then .done else r.schedule }
    (s.raiseLineFault.judgeArm).closeIfQuiet
  else s

/-! ## Resets (R18, R19, R34, R51, R90, R132, R152, R169, R175, R181, R184, R186) -/

/-- POWER_ON_RESET. -/
def execPowerOnReset (rate : LineRate) (participant : Bool) (s : State) :
    Host.Outcome State Fault Refusal :=
  .next (State.afterReset .powerOn rate participant s.serial
    (s.axes.map AxisChannel.encoderInputs) s.pending s.free)

/-- PIN_RESET. -/
def execPinReset (rate : LineRate) (participant : Bool) (s : State) :
    Host.Outcome State Fault Refusal :=
  .next (State.afterReset .pin rate participant s.serial
    (s.axes.map AxisChannel.encoderInputs) s.pending s.free)

/-! ## Line states -/

/-- QUIET_COUNT_REACHED (R4, R9): the 11th recessive bit clears LINE_STUCK and opens the line. -/
def execQuietCountReached (t : Nat) (s : State) : Host.Outcome State Fault Refusal :=
  .next (s.inLine .waitQuiet t fun s =>
    let s := s.readLine false (Config.quietBits - s.line.quietCount)
    let s := s.onLine fun l => { l with lineStuck := false }
    s.enterLineIdle.judgeArm)

/-- INTERMISSION_END (R4). -/
def execIntermissionEnd (t : Nat) (s : State) : Host.Outcome State Fault Refusal :=
  .next (s.inLine .intermission t fun s =>
    (s.readLine false Config.intermissionBits).enterLineIdle)

/-- START_BIT (R4). -/
def execStartBit (t : Nat) (s : State) : Host.Outcome State Fault Refusal :=
  .next (s.inLine .idle t fun s => (s.readLine true 1).setLine .receiving)

/-- LINE_STUCK (R9): the 32nd dominant bit of a run. The attempt and any reception end, and the
queue is held. The entry in transmission goes as at a lost arbitration: R9 and R12 do not say, so
this is the model's choice (assumption 36). -/
def execLineStuck (t : Nat) (s : State) : Host.Outcome State Fault Refusal :=
  let s := s.reach t
  let newly := !s.line.lineStuck
  let s := (s.readLine true (Config.stuckBits - s.line.dominantRun)).drive false
  let s := (s.loseAttempt.onLine fun l => { l with lineStuck := true }).enterWaitQuiet
  .next (if newly then s.raiseLineFault.judgeArm else s)

/-! ## Transmission attempts -/

/-- TRANSMIT_START (R4, R12). -/
def execTransmitStart (t : Nat) (s : State) : Host.Outcome State Fault Refusal :=
  .next (s.inLine .idle t fun s =>
    if s.maySend then
      let s := s.onLine fun l => { l with txQueue := markSending l.txQueue, state := .transmitting }
      (s.drive true).readLine true 1
    else s)

/-- ARBITRATION_LOST (R5). -/
def execArbitrationLost (t : Nat) (s : State) : Host.Outcome State Fault Refusal :=
  .next (s.inLine .transmitting t fun s =>
    (((s.readLine true 1).drive false).setLine .receiving).loseAttempt)

/-- CLASH (R6, R7). -/
def execClash (t : Nat) (s : State) : Host.Outcome State Fault Refusal :=
  .next (s.inLine .transmitting t fun s =>
    (((s.drive false).setLine .receiving).endAttempt false).countClash)

/-- TRANSMIT_COMPLETE (R7, R12). -/
def execTransmitComplete (t : Nat) (s : State) : Host.Outcome State Fault Refusal :=
  .next (s.inLine .transmitting t fun s =>
    let s := (s.readLine false Config.endBits).drive false
    (s.onLine fun l => { l with state := .intermission, clashRun := 0 }).endAttempt true)

/-! ## Receive findings (R8) -/

/-- FORM_ERROR (R4, R8): in INTERMISSION it is a dominant bit; in RECEIVING the command does not
tell the bit's level. -/
def execFormError (t : Nat) (s : State) : Host.Outcome State Fault Refusal :=
  .next (match s.line.state with
    | .receiving => ((s.reach t).count .formErrors).enterWaitQuiet
    | .intermission => (((s.reach t).readLine true 1).count .formErrors).enterWaitQuiet
    | .waitQuiet | .idle | .transmitting => s)

/-- CHECK_ERROR (R8). -/
def execCheckError (t : Nat) (s : State) : Host.Outcome State Fault Refusal :=
  .next (s.arrive t (State.count .checkErrors))

/-- UNDEFINED_CLASS (R8). -/
def execUndefinedClass (t : Nat) (s : State) : Host.Outcome State Fault Refusal :=
  .next (s.arrive t (State.count .unknownClass))

/-- REPLY (R11): a received REPLY is not acted on. -/
def execReply (t : Nat) (_station : BitVec 5) (_kind : BitVec 4) (_payload : List Byte)
    (s : State) : Host.Outcome State Fault Refusal :=
  .next (s.arrive t id)

/-! ## Emptyings (R15) -/

/-- STATION_RESET_FLUSH (R15, R191). -/
def execStationResetFlush (s : State) : Host.Outcome State Fault Refusal :=
  .next (if s.line.flushDue then s.resetFlush else s)

/-- ROSTER_REOPENING (R27). -/
def execRosterReopening (s : State) : Host.Outcome State Fault Refusal :=
  .next (if s.line.reopenDue then s.reopen else s)

/-! ## Requests (R11, R16, R17, R65) -/

/-- REQUEST_ARRIVAL (R11, R16). -/
def execRequestArrival (t : Nat) (station : BitVec 5) (kind : BitVec 4) (payload : List Byte)
    (s : State) : Host.Outcome State Fault Refusal :=
  .next (s.arrive t (State.ifTaken payload fun target body =>
    State.joinRequests { requester := station, kind, target, body }))

/-- The dispatcher takes the head of the request queue when `test` accepts it (R16). -/
def State.dispatch (test : RequestRecord → Bool) (f : RequestRecord → State → State)
    (s : State) : State :=
  match s.line.requestQueue with
  | r :: rest =>
    if test r then f r (s.onLine fun l => { l with requestQueue := rest }) else s
  | [] => s

/-- The length of a request is one that its kind defines (R17, R194). -/
def RequestRecord.lengthDefined (r : RequestRecord) : Bool := definedLength r.kind r.payload.length

/-- The dispatcher hands the head to the handler of its kind: never while the store is VALIDATING,
when it answers BUSY itself (R65). -/
def State.handle (kind : BitVec 4) (test : RequestRecord → Bool)
    (f : RequestRecord → State → State) (s : State) : State :=
  s.dispatch (fun r =>
    r.kind == kind && r.lengthDefined && test r && s.store.phase != .validating) f

/-- DISPATCH_UNKNOWN (R17). -/
def execDispatchUnknown (s : State) : Host.Outcome State Fault Refusal :=
  .next (s.dispatch (fun r => !r.lengthDefined) fun r => State.answer r .unknown)

/-- DISPATCH_BUSY (R65). -/
def execDispatchBusy (s : State) : Host.Outcome State Fault Refusal :=
  .next (s.dispatch (fun r => r.lengthDefined && s.store.phase == .validating)
    fun r => State.answer r .busy)

end Sys2Proof.Machine
end

