-- ==== Sys2Proof/Machine/RosterEvents.lean ====
section
/-! DEFINITION. Meanings of the roster's events (chapter 2). -/

namespace Sys2Proof.Machine

/-- The payload of the node's own ANNOUNCE: its serial, rank 1 and its strap (R20, 12.1). -/
def State.announcePayload (s : State) : List Byte :=
  bytesOf s.serial.toNat 4 ++ bytesOf (s.participant.toNat * 128 + 1) 1

/-- The ANNOUNCE is offered and its outcome awaited (R20). -/
def State.offerAnnounce (s : State) : State :=
  (s.onRoster fun r => { r with schedule := .offered }).offer
    (.new 3 31 0 s.announcePayload .announce)

/-- ANNOUNCE_DELAY_EXPIRY (R20): one ANNOUNCE is offered, and waits while TX_OFF or LINE_STUCK is live.
A TX_OFF that becomes live while settling has ended the schedule (`State.countClash`). -/
def execAnnounceDelayExpiry (s : State) : Host.Outcome State Fault Refusal :=
  .next (match s.roster.phase, s.roster.schedule with
  | .settling, .delay due => (s.reach due).offerAnnounce
  | _, _ => s)

/-- ANNOUNCE (R21, R25): heard while SETTLING, or the mismatch it makes of a CLOSED roster. -/
def execAnnounce (t : Nat) (_station : BitVec 5) (payload : List Byte) (s : State) :
    Host.Outcome State Fault Refusal :=
  .next (s.arrive t (State.ifLength payload 5 fun s =>
    match s.roster.phase with
    | .settling =>
      s.onRoster (.hear s.serial s.now (.announced (BitVec.ofNat 32 (fieldAt payload 0 4))
        (BitVec.ofNat 3 (byteAt payload 4)) (bitOf (byteAt payload 4) 7)))
    | .closed => (s.onRoster fun r => { r with mismatch := true }).judgeArm))

/-- ROSTER_CLOSING (R22, R23). -/
def execRosterClosing (s : State) : Host.Outcome State Fault Refusal :=
  .next (if s.roster.phase = .settling ∧ s.announcesDone then
    (s.reach (s.roster.quietStart + Config.quietClocks)).closeRoster
  else s)

/-- DIGEST (R22, R24). -/
def execDigest (t : Nat) (_station : BitVec 5) (payload : List Byte) (s : State) :
    Host.Outcome State Fault Refusal :=
  .next (s.arrive t (State.ifLength payload 3 fun s =>
    match s.roster.phase with
    | .settling => s
    | .closed =>
      if byteAt payload 0 = s.roster.table.length ∧
          fieldAt payload 1 2 = s.roster.check.toNat then s
      else (s.onRoster fun r => { r with mismatch := true }).judgeArm))

/-- REPORT (R22, R28). -/
def execReport (t : Nat) (station : BitVec 5) (payload : List Byte) (s : State) :
    Host.Outcome State Fault Refusal :=
  .next (s.arrive t (State.ifLength payload 24 fun s =>
    match s.roster.phase with
    | .settling => s
    | .closed => s.takeReport station.toNat (readReport payload)))

end Sys2Proof.Machine
end

