-- ==== Sys2Proof/Machine/ClockEvents.lean ====
section
/-! DEFINITION. Meanings of the frame clock's events: marks, edges, deadlines, pass ticks, slew
ticks (chapter 3), and the report timer (R113). An event whose instant the part fixes comes at that
instant, or not at all (assumption 4). -/

namespace Sys2Proof.Machine

/-- An event of the part's own timing: nothing when it is not due to come. -/
def State.atInstant (due : Option Nat) (f : Nat → State → State) (s : State) : State :=
  match due with
  | some d => f d (s.reach d)
  | none => s

/-- REAL_MARK (R33): a rising edge of SHUTTER. -/
def execRealMark (t : Nat) (roll : Bool) (s : State) : Host.Outcome State Fault Refusal :=
  .next ((s.reach t).realMark roll)

/-- The clock states in which a CLOSE is handed (R50). -/
def ClockState.closes : ClockState → Bool
  | .free | .acquiring | .locked | .holdover => true
  | .coasting | .localMarks => false

/-- SHUTTER_FALL (R50). -/
def execShutterFall (t : Nat) (s : State) : Host.Outcome State Fault Refusal :=
  let s := s.reach t
  .next (if s.clock.closePending && s.clock.state.closes then s.exposureClose else s)

/-- HOLDOVER_DEADLINE (R40, R42). -/
def execHoldoverDeadline (s : State) : Host.Outcome State Fault Refusal :=
  .next (s.atInstant s.clock.holdoverAt fun d s =>
    (s.catchUp 16).countMark .synthesized false (State.adoptSynthesized d))

/-- COASTING_MARK (R43). -/
def execCoastingMark (s : State) : Host.Outcome State Fault Refusal :=
  .next (s.atInstant (s.clock.ownMarkAt .coasting) (State.ownMark .coasting .synthesized))

/-- The clock enters LOCAL at its first local mark (R44). -/
def State.adoptLocal (s : State) : State :=
  (s.onClock fun c => { c with
    state := .localMarks, period := some s.store.localPeriod, timingBase := some s.now
    origin := .localMark }).judgeArm

/-- LOCAL_ENTRY (R44). -/
def execLocalEntry (s : State) : Host.Outcome State Fault Refusal :=
  .next (s.atInstant s.localEntryAt fun _ s => s.countMark .localMark false State.adoptLocal)

/-- LOCAL_MARK (R44). -/
def execLocalMark (s : State) : Host.Outcome State Fault Refusal :=
  .next (s.atInstant (s.clock.ownMarkAt .localMarks) (State.ownMark .localMarks .localMark))

/-- ACQUIRE_TIMEOUT (R37). -/
def execAcquireTimeout (s : State) : Host.Outcome State Fault Refusal :=
  .next (s.atInstant s.clock.timeoutAt fun _ s =>
    ((s.onClock fun c => { c with rangeLow := true, rangeHigh := false }).enterFree).judgeArm)

/-- PASS_TICK (R46): the next paced tick of the current frame. -/
def execPassTick (s : State) : Host.Outcome State Fault Refusal :=
  .next (match s.clock.tickAt with
  | some (d, j) => (s.reach d).issueTick j
  | none => s)

/-- The instant of the next slew tick (R49). -/
def FrameClock.slewAt (c : FrameClock) : Nat := c.slewStart + Config.slewTickClocks

/-- SLEW_TICK (R49). -/
def execSlewTick (s : State) : Host.Outcome State Fault Refusal :=
  let d := s.clock.slewAt
  .next (((s.reach d).onClock fun c => { c with slewStart := d }).slewWork)

/-- The instant at which the report timer reaches 100 ms; none in a pass, in SETTLING and in
EXCLUDED (R113). -/
def State.reportAt (s : State) : Option Nat :=
  if s.engine.nodeState.inPass ∨ s.engine.nodeState = .settling ∨ s.engine.nodeState = .excluded
  then none
  else some (s.engine.reportStart + Config.reportClocks)

/-- REPORT_TIMER_EXPIRY (R113). -/
def execReportTimerExpiry (s : State) : Host.Outcome State Fault Refusal :=
  .next (s.atInstant s.reportAt fun _ => State.offerReport)

end Sys2Proof.Machine
end

