-- ==== Sys2Proof/Machine/PassEvents.lean ====
section
/-! DEFINITION. Meanings of the telegrams that begin and end passes: START and DECLINE (R102 to
R106) and HALT, specific and generic (R120 to R122). -/

namespace Sys2Proof.Machine

/-! ## START (R102, R103) -/

/-- The fields of a START (12.1). -/
structure StartFields where
  startFrame : Nat
  moveId : Nat
  rate : Nat
  scale : Nat
  haltLength : Nat
  interval : Nat
  count : Nat
  deriving DecidableEq, Repr

def readStart (p : List Byte) : StartFields :=
  { startFrame := frame20At p 0, moveId := fieldAt p 3 4, rate := fieldAt p 7 2,
    scale := fieldAt p 9 3, haltLength := fieldAt p 12 2, interval := byteAt p 14,
    count := byteAt p 15 }

/-- Finding 3 of R103 does not apply. -/
def StartFields.inRange (f : StartFields) : Bool :=
  (1 ≤ f.rate && f.rate ≤ 16384) && (256 ≤ f.scale && f.scale ≤ 65536) &&
  (16 ≤ f.haltLength && f.haltLength ≤ 4096) && [1, 2, 4, 8].contains f.interval

/-- R29: the entry's last state is ARMED and its last report is less than 300 ms old. -/
def RosterEntry.freshArmed (now : Nat) (e : RosterEntry) : Bool :=
  e.lastState == some 5 &&
    match e.lastReport with
    | some at' => now - at' < Config.quietClocks
    | none => false

/-- R29: every participant but the own entry is fresh and ARMED; `i` is the list's first place. -/
def othersArmed (now : Nat) (own : Option Nat) : Nat → List RosterEntry → Bool
  | _, [] => true
  | i, e :: es =>
    (!e.participant || own == some i || e.freshArmed now) && othersArmed now own (i + 1) es

/-- The first finding of R103 that applies; none is acceptance. -/
def State.judgeStart (f : StartFields) (s : State) : Option DeclineReason :=
  if s.roster.phase ≠ .closed ∨ s.roster.mismatch then some .rosterMismatch
  else if s.engine.nodeState ≠ .armed then some .notArmed
  else if f.inRange = false then some .paramRange
  else if f.moveId ≠ s.validMoveId then some .moveId
  else if f.scale ≠ s.engine.path.scale then some .scaleDiffers
  else if f.count ≠ s.roster.participantCount then some .countDiffers
  else if f.startFrame ≤ s.clock.roll + 1 then some .tooLate
  else if othersArmed s.now s.roster.ownPosition 0 s.roster.table = false then
    some .peerNotArmed
  else none

/-- An accepted START: its parameters, and PENDING (R103). -/
def State.acceptStart (f : StartFields) (s : State) : State :=
  let params : PassParams :=
    { startFrame := f.startFrame, moveId := BitVec.ofNat 32 f.moveId, rate := f.rate,
      scale := f.scale, haltLength := f.haltLength, interval := f.interval }
  (s.onEngine fun e => { e with params := some params }).enterNode .pending

/-- The nodes that judge a START at all (R102). -/
def State.judgesStart (s : State) : Bool := s.participant && s.roster.station.isSome

/-- A START as the playback engine takes it (R102, R103). -/
def State.takeStart (f : StartFields) (s : State) : State :=
  if ¬ s.judgesStart then s
  else if s.engine.nodeState = .pending ∨ s.engine.nodeState.inPass then s.count .strayStarts
  else
    match s.judgeStart f with
    | some reason => s.offerDecline f.startFrame reason
    | none => s.acceptStart f

/-- START (R102, R103). -/
def execStart (t : Nat) (_station : BitVec 5) (payload : List Byte) (s : State) :
    Host.Outcome State Fault Refusal :=
  .next (s.arrive t (State.ifLength payload 16 (State.takeStart (readStart payload))))

/-! ## DECLINE (R105, R106) -/

/-- The node has accepted a START for this start frame and not ended its pass. -/
def State.names (f : Nat) (s : State) : Bool := s.engine.params.isSome && s.passStart == f

/-- A DECLINE naming `f`, from a station (R105, R106). -/
def State.takeDecline (station f : Nat) (s : State) : State :=
  if s.names f then
    match s.engine.nodeState with
    | .pending => s.backToArmed
    | .running => s.raise .peerDeclined none (some station)
    | .settling | .excluded | .idle | .loading | .slewing | .armed | .halting | .halted
    | .ended | .returning | .stopped => s
  else s

/-- DECLINE (R105, R106). -/
def execDecline (t : Nat) (station : BitVec 5) (payload : List Byte) (s : State) :
    Host.Outcome State Fault Refusal :=
  .next (s.arrive t (State.ifLength payload 4
    (State.takeDecline station.toNat (frame20At payload 0))))

/-! ## HALT (R120, R121) -/

/-- The engine asks the line interface to cancel its HALT for this pass (R14). -/
def State.cancelHalt (s : State) : State :=
  let mine := fun e : TxEntry => e.owner == .halt true
  match s.line.txQueue.find? mine with
  | none => s
  | some e =>
    if e.sending then
      s.onLine fun l =>
        { l with txQueue := updateFirst mine (fun x => { x with cancelled := true }) l.txQueue }
    else
      (s.onLine fun l => { l with txQueue := l.txQueue.eraseP mine }).outcome e.owner false

/-- The minimum rule on the halt record (R120): a received ramp start at a node that has taken
tick `last`. -/
def HaltRecord.take (last ramp : Nat) (cause : HaltCause) (h : HaltRecord) : HaltRecord :=
  if h.rampStart.any (· ≤ ramp) then h
  else if last ≤ ramp then { h with rampStart := some ramp, cause := some cause }
  else { h with rampStart := some last, cause := some cause, late := true }

/-- The received ramp start is late (R120). -/
def HaltRecord.isLate (last ramp : Nat) (h : HaltRecord) : Bool :=
  !(h.rampStart.any (· ≤ ramp)) && ramp < last

/-- An applied HALT in RUNNING (R120). -/
def State.haltRunning (ramp : Nat) (cause : HaltCause) (s : State) : State :=
  let late := s.engine.halt.isLate s.engine.tick ramp
  let s := s.onEngine fun e => { e with halt := e.halt.take e.tick ramp cause }
  let s := if late then s.note .haltLate else s
  if s.engine.halt.ownHalt.any (ramp ≤ ·) then s.cancelHalt else s

/-- An applied HALT in HALTING (R121). -/
def State.haltHalting (ramp : Nat) (s : State) : State :=
  if s.engine.halt.rampStart.any (ramp < ·) then
    (s.onEngine fun e => { e with halt := { e.halt with late := true } }).note .haltLate
  else s

/-- A HALT that names start frame `f` (R105, R120, R121). -/
def State.takeHalt (station f ramp : Nat) (code : Byte) (s : State) : State :=
  if s.names f then
    let latched := s.latch .remoteHalt none (some station)
    match s.engine.nodeState with
    | .pending => latched.backToArmed
    | .running => latched.haltRunning ramp ⟨code, station⟩
    | .halting => latched.haltHalting ramp
    | .settling | .excluded | .idle | .loading | .slewing | .armed | .halted | .ended
    | .returning | .stopped => s
  else s

/-- A generic HALT (R122). -/
def State.takeGenericHalt (station : Nat) (s : State) : State :=
  let latched := s.latch .remoteHalt none (some station)
  match s.engine.nodeState with
  | .running => latched.ownHaltEvent Cause.remoteHalt.byte
  | .halting => latched
  | .pending => latched.backToArmed
  | .armed => latched.disarm
  | .slewing | .returning => latched.decelerate
  | .settling | .excluded | .idle | .loading | .halted | .ended | .stopped => s

/-- A received HALT telegram, read by its own F (R192). A cause code outside 0 to 17 is taken as it comes:
DESIGN CHOICE (assumption 56). -/
def State.takeHaltTelegram (station : Nat) (p : List Byte) (s : State) : State :=
  if fieldAt p 0 3 = Config.genericF then s.takeGenericHalt station
  else s.takeHalt station (frame20At p 0) (fieldAt p 3 4) (BitVec.ofNat 8 (byteAt p 7))

/-- HALT (R120, R121). -/
def execHalt (t : Nat) (station : BitVec 5) (payload : List Byte) (s : State) :
    Host.Outcome State Fault Refusal :=
  .next (s.arrive t (State.ifLength payload 8 (State.takeHaltTelegram station.toNat payload)))

/-- GENERIC_HALT (R122). -/
def execGenericHalt (t : Nat) (station : BitVec 5) (payload : List Byte) (s : State) :
    Host.Outcome State Fault Refusal :=
  .next (s.arrive t (State.ifLength payload 8 (State.takeHaltTelegram station.toNat payload)))

end Sys2Proof.Machine
end

