-- ==== Sys2Proof/Machine/LoadEvents.lean ====
section
/-! DEFINITION. Meanings of the LOAD telegrams and of the end of validation (chapter 4, R195). -/

namespace Sys2Proof.Machine

/-! ## Chunks (R61 to R64) -/

/-- R64: the first chunk that latches the load-order record sets it. -/
def MoveStore.latchOrder (list : ListName) (index : Option Nat) (st : MoveStore) : MoveStore :=
  if st.loadOrder.isNone then { st with loadOrder := some ⟨list, index⟩ } else st

/-- A malformed chunk: list NONE and no index (R62, R63). -/
def MoveStore.malformed (st : MoveStore) : MoveStore := st.latchOrder .none none

/-- A taken LOAD telegram: judged while LOADING, a stray otherwise (R61). -/
def State.takeLoad (judge : MoveStore → MoveStore) (s : State) : State :=
  if s.store.phase = .loading then s.onStore judge
  else (s.count .strayLoads).note .loadStray

/-- The arrival of a LOAD telegram (R11, R61). -/
def State.arriveLoad (t : Nat) (p : List Byte) (judge : MoveStore → MoveStore) (s : State) :
    State :=
  s.arrive t (State.ifTaken p fun _ _ => State.takeLoad judge)

/-- An AXIS_SETUP chunk's record (R195). -/
def readAxisSetup (p : List Byte) : AxisSetup :=
  { scaleClass := byteAt p 2, origin := signedAt p 3 4, softMin := signedAt p 7 3,
    softMax := signedAt p 10 3, slewSpeed := fieldAt p 13 3, slewAccel := fieldAt p 16 2,
    followingLimit := fieldAt p 18 2, tolerance := fieldAt p 20 2 }

/-- An AXIS_SETUP chunk in LOADING (R62). -/
def MoveStore.takeAxisSetup (p : List Byte) (st : MoveStore) : MoveStore :=
  if h : p.length = 22 ∧ byteAt p 1 < 4 then
    { st with axisSetups := st.axisSetups.set (byteAt p 1) (some (readAxisSetup p)) h.2 }
  else st.malformed

/-- A LEVEL_SETUP chunk in LOADING (R62). -/
def MoveStore.takeLevelSetup (p : List Byte) (st : MoveStore) : MoveStore :=
  if h : p.length = 5 ∧ byteAt p 1 < 2 then
    let setup : LevelSetup := { compensation := byteAt p 2, nominal := fieldAt p 3 2 }
    { st with levelSetups := st.levelSetups.set (byteAt p 1) (some setup) h.2 }
  else st.malformed

/-- A CUE_SETUP chunk in LOADING (R62). -/
def MoveStore.takeCueSetup (p : List Byte) (st : MoveStore) : MoveStore :=
  if p.length = 2 then { st with cueSetup := some (BitVec.ofNat 8 (byteAt p 1)) }
  else st.malformed

/-- The declared count of a track; 0 while no header is held. -/
def MoveStore.countOf (st : MoveStore) (track : Fin 6) : Nat :=
  match st.header with
  | some h => h.counts[track]
  | none => 0

/-- The declared cue count. -/
def MoveStore.cueCount (st : MoveStore) : Nat :=
  match st.header with
  | some h => h.cueCount
  | none => 0

/-- Writes entries to consecutive slots from `a` (R57, R63). -/
def writeSlots (a : Nat) : List Slot → Cells Slot → Cells Slot
  | [], pool => pool
  | x :: xs, pool => writeSlots (a + 1) xs (pool.write a x)

/-- A well-formed KEYS or LEVEL_KEYS chunk in LOADING: the last three cases of R63. -/
def MoveStore.takeKeys (track : Fin 6) (first : Nat) (entries : List Slot) (st : MoveStore) :
    MoveStore :=
  let x := st.nextIndex[track]
  if first ≠ x ∨ st.countOf track < x + entries.length then
    st.latchOrder (.track track) (some first)
  else
    match st.blockStarts[track] with
    | some b =>
      { st with
        pool := writeSlots (b + x) entries st.pool
        nextIndex := st.nextIndex.set track (x + entries.length) }
    | none => st

/-- The bytes of one axis key in a KEYS chunk. -/
def keyBytes (tangent : Bool) : Nat := if tangent then 10 else 6

/-- An axis key of a KEYS chunk, from byte `i` (R195). -/
def readAxisKey (p : List Byte) (i shape : Nat) (tangent : Bool) : Slot :=
  .axis
    { time := fieldAt p i 2, value := signedAt p (i + 2) 4, shape
      tangent := if tangent then some (signedAt p (i + 6) 4) else none }

/-- The keys of a KEYS chunk; none when its length does not agree with its tangent marks (R195). -/
def readKeys (p : List Byte) : Option (List Slot) :=
  let b := byteAt p 1
  let t1 := bitOf b 1
  let t2 := bitOf b 0
  if p.length = 4 + keyBytes t1 then some [readAxisKey p 4 (bitsOf b 5 4) t1]
  else if p.length = 4 + keyBytes t1 + keyBytes t2 then
    some [readAxisKey p 4 (bitsOf b 5 4) t1,
          readAxisKey p (4 + keyBytes t1) (bitsOf b 3 2) t2]
  else none

/-- The axis of a KEYS chunk as a track (R195). -/
def keysTrack (p : List Byte) : Fin 6 := Fin.ofNat 6 (bitsOf (byteAt p 1) 7 6)

/-- A KEYS chunk in LOADING (R63). -/
def MoveStore.takeAxisKeys (p : List Byte) (st : MoveStore) : MoveStore :=
  match readKeys p with
  | some entries => st.takeKeys (keysTrack p) (fieldAt p 2 2 % 4096) entries
  | none => st.malformed

/-- A level key of a LEVEL_KEYS chunk, from byte `i` (R195). -/
def readLevelKey (p : List Byte) (i shape : Nat) : Slot :=
  .level { time := fieldAt p i 2, value := fieldAt p (i + 2) 2, shape }

/-- The keys of a LEVEL_KEYS chunk of a defined length (R195). -/
def readLevelKeys (p : List Byte) : Option (List Slot) :=
  let b := byteAt p 2
  if p.length = 9 then some [readLevelKey p 5 (bitsOf b 3 2)]
  else if p.length = 13 then some [readLevelKey p 5 (bitsOf b 3 2), readLevelKey p 9 (bitsOf b 1 0)]
  else none

/-- A LEVEL_KEYS chunk in LOADING (R63). -/
def MoveStore.takeLevelKeys (p : List Byte) (st : MoveStore) : MoveStore :=
  match readLevelKeys p with
  | some entries =>
    if byteAt p 1 < 2 then
      st.takeKeys (Fin.ofNat 6 (4 + byteAt p 1)) (fieldAt p 3 2 % 4096) entries
    else st.malformed
  | none => st.malformed

/-- A cue entry of a CUES chunk, from byte `i` (R195). -/
def readCue (p : List Byte) (i : Nat) : CueEntry :=
  { frame := fieldAt p i 2, phase := fieldAt p (i + 2) 2, lines := BitVec.ofNat 8 (byteAt p (i + 4)),
    action := byteAt p (i + 5), pulse := byteAt p (i + 6) }

/-- The entries of a CUES chunk of a defined length (R195). -/
def readCues (p : List Byte) : Option (List CueEntry) :=
  if p.length = 9 then some [readCue p 2]
  else if p.length = 16 then some [readCue p 2, readCue p 9]
  else none

/-- A CUES chunk in LOADING (R63). -/
def MoveStore.takeCues (p : List Byte) (st : MoveStore) : MoveStore :=
  match readCues p with
  | some entries =>
    if byteAt p 1 ≠ st.nextCue ∨ st.cueCount < st.nextCue + entries.length then
      st.latchOrder .cues (some (byteAt p 1))
    else
      { st with cueList := st.cueList ++ entries, nextCue := st.nextCue + entries.length }
  | none => st.malformed

/-- AXIS_SETUP (R61, R62). -/
def execAxisSetup (t : Nat) (_station : BitVec 5) (payload : List Byte) (s : State) :
    Host.Outcome State Fault Refusal :=
  .next (s.arriveLoad t payload (MoveStore.takeAxisSetup payload))

/-- LEVEL_SETUP (R61, R62). -/
def execLevelSetup (t : Nat) (_station : BitVec 5) (payload : List Byte) (s : State) :
    Host.Outcome State Fault Refusal :=
  .next (s.arriveLoad t payload (MoveStore.takeLevelSetup payload))

/-- CUE_SETUP (R61, R62). -/
def execCueSetup (t : Nat) (_station : BitVec 5) (payload : List Byte) (s : State) :
    Host.Outcome State Fault Refusal :=
  .next (s.arriveLoad t payload (MoveStore.takeCueSetup payload))

/-- KEYS (R61, R63). -/
def execKeys (t : Nat) (_station : BitVec 5) (payload : List Byte) (s : State) :
    Host.Outcome State Fault Refusal :=
  .next (s.arriveLoad t payload (MoveStore.takeAxisKeys payload))

/-- LEVEL_KEYS (R61, R63). -/
def execLevelKeys (t : Nat) (_station : BitVec 5) (payload : List Byte) (s : State) :
    Host.Outcome State Fault Refusal :=
  .next (s.arriveLoad t payload (MoveStore.takeLevelKeys payload))

/-- CUES (R61, R63). -/
def execCues (t : Nat) (_station : BitVec 5) (payload : List Byte) (s : State) :
    Host.Outcome State Fault Refusal :=
  .next (s.arriveLoad t payload (MoveStore.takeCues payload))

/-! ## Validation (R66) -/

/-- A fault of a load: its error, and the list and index where it has them. -/
structure LoadFault where
  error : RefusalReason
  list : ListName
  index : Option Nat
  deriving DecidableEq, Repr

/-- The six tracks in order. -/
def trackOrder : List (Fin 6) := [0, 1, 2, 3, 4, 5]

/-- A track is enabled in the held header. -/
def MoveStore.enabled (st : MoveStore) (track : Fin 6) : Bool :=
  trackEnable st track == some true

/-- The setup of an axis or level track is present. -/
def MoveStore.setupPresent (st : MoveStore) (track : Fin 6) : Bool :=
  if h : track.val < 4 then (st.axisSetups[track.val]'h).isSome
  else (st.levelSetups[track.val - 4]'(by omega)).isSome

def Slot.time : Slot → Nat
  | .axis k => k.time
  | .level k => k.time

/-- Check 1 (R64). -/
def MoveStore.checkOrder (st : MoveStore) : Option LoadFault :=
  st.loadOrder.map fun o => ⟨.loadOrder, o.list, o.index⟩

/-- Check 2. -/
def MoveStore.checkSetups (st : MoveStore) : Option LoadFault :=
  match trackOrder.find? fun t => st.enabled t && !st.setupPresent t with
  | some t => some ⟨.missingSetup, .track t, none⟩
  | none => if st.cueSetup.isNone then some ⟨.missingSetup, .cues, none⟩ else none

/-- Check 3. -/
def MoveStore.checkCounts (st : MoveStore) : Option LoadFault :=
  match trackOrder.find? fun t => st.nextIndex[t] < st.countOf t with
  | some t => some ⟨.countShort, .track t, some st.nextIndex[t]⟩
  | none => if st.nextCue < st.cueCount then some ⟨.countShort, .cues, some st.nextCue⟩ else none

/-- The track's key 0 has a time other than 0, or there is none. -/
def MoveStore.badFirstKey (st : MoveStore) (track : Fin 6) : Bool :=
  match trackSlots st track with
  | [] => true
  | k :: _ => k.time != 0

/-- Check 4. -/
def MoveStore.checkFirstKeys (st : MoveStore) : Option LoadFault :=
  (trackOrder.find? fun t => st.enabled t && st.badFirstKey t).map fun t =>
    ⟨.firstKeyNotZero, .track t, some 0⟩

/-- The index of the first element that stands in `bad` with its predecessor; `i` is the index of
the list's first element. -/
def firstBadStep (bad : Nat → Nat → Bool) : Nat → List Nat → Option Nat
  | _, [] => none
  | _, [_] => none
  | i, a :: b :: xs => if bad a b then some (i + 1) else firstBadStep bad (i + 1) (b :: xs)

/-- Check 5. -/
def MoveStore.checkTimes (st : MoveStore) : Option LoadFault :=
  let perTrack := trackOrder.findSome? fun t =>
    (firstBadStep (fun a b => b ≤ a) 0 ((trackSlots st t).map Slot.time)).map fun i =>
      (⟨.timeNotIncreasing, .track t, some i⟩ : LoadFault)
  perTrack.or ((firstBadStep (fun a b => b < a) 0 (st.cueList.map CueEntry.time)).map fun i =>
    ⟨.timeNotIncreasing, .cues, some i⟩)

/-- An axis as a track. -/
def axisTrack (a : Fin 4) : Fin 6 := a.castLE (by decide)

/-- Check 6. -/
def MoveStore.checkLimits (st : MoveStore) : Option LoadFault :=
  (axisOrder.find? fun a => st.enabled (axisTrack a) &&
    match st.axisSetups[a] with
    | some x => decide (x.softMax ≤ x.softMin)
    | none => false).map fun a => ⟨.limitsInverted, .track (axisTrack a), none⟩

/-- A number lies in a range, both ends included. -/
def inRange (lo hi v : Int) : Bool := decide (lo ≤ v) && decide (v ≤ hi)

/-- The values R52 accepts. -/
def AxisSetup.accepted (x : AxisSetup) : Bool :=
  inRange 0 1 x.scaleClass && inRange (-Config.stepBound) Config.stepBound x.softMin &&
  inRange (-Config.stepBound) Config.stepBound x.softMax && inRange 1 128000 x.slewSpeed &&
  inRange 1 65535 x.slewAccel && inRange 1 65535 x.followingLimit && inRange 1 65535 x.tolerance

/-- The values R53 accepts. -/
def LevelSetup.accepted (x : LevelSetup) : Bool :=
  inRange 0 1 x.compensation && inRange 1 1023 x.nominal

/-- The values R54 and R55 accept; an axis track holds axis keys and a level track level keys. -/
def Slot.accepted : Slot → Bool
  | .axis k => inRange 0 2 k.shape
  | .level k => inRange 0 1023 k.value && inRange 0 1 k.shape

/-- The values R56 accepts: SET 0, CLEAR 1, PULSE 2 with a pulse length. -/
def CueEntry.accepted (c : CueEntry) : Bool :=
  inRange 0 1023 c.phase && c.lines != 0 && inRange 0 2 c.action && !(c.action == 2 && c.pulse == 0)

/-- The setup of an enabled track is outside the accepted values. -/
def MoveStore.badSetup (st : MoveStore) (track : Fin 6) : Bool :=
  st.enabled track &&
    if h : track.val < 4 then
      match st.axisSetups[track.val]'h with
      | some x => !x.accepted
      | none => false
    else
      match st.levelSetups[track.val - 4]'(by omega) with
      | some x => !x.accepted
      | none => false

/-- Check 7: for one list, the setup is judged before the keys or cues. -/
def MoveStore.checkValues (st : MoveStore) : Option LoadFault :=
  let perTrack := trackOrder.findSome? fun t =>
    if st.badSetup t then some (⟨.valueRange, .track t, none⟩ : LoadFault)
    else ((trackSlots st t).findIdx? fun k => !k.accepted).map fun i =>
      ⟨.valueRange, .track t, some i⟩
  perTrack.or ((st.cueList.findIdx? fun c => !c.accepted).map fun i =>
    ⟨.valueRange, .cues, some i⟩)

/-- The end of a track: the time of its last key (R67). -/
def MoveStore.trackEnd (st : MoveStore) (track : Fin 6) : Nat :=
  match (trackSlots st track).getLast? with
  | some k => k.time
  | none => 0

/-- The move length (R67). -/
def MoveStore.moveLength (st : MoveStore) : Nat :=
  (trackOrder.map st.trackEnd).foldl max 0

/-- Check 8. -/
def MoveStore.checkCueEnd (st : MoveStore) : Option LoadFault :=
  (st.cueList.findIdx? fun c => decide (st.moveLength * 65536 < c.time)).map fun i =>
    ⟨.cueBeyondEnd, .cues, some i⟩

/-- The result of validation: the first fault found, or none (R66). -/
def MoveStore.validate (st : MoveStore) : Option LoadFault :=
  st.checkOrder.or (st.checkSetups.or (st.checkCounts.or (st.checkFirstKeys.or
    (st.checkTimes.or (st.checkLimits.or (st.checkValues.or st.checkCueEnd))))))

/-! ## The end of validation (R65, R67, R68) -/

/-- Validation's duration: 40,000 base clocks and 80 for each key and cue written (R65). -/
def MoveStore.validationClocks (st : MoveStore) : Nat :=
  40000 + 80 * ((trackOrder.map fun t => st.nextIndex[t]).sum + st.nextCue)

/-- The instant at which a running validation ends. -/
def MoveStore.validationAt (st : MoveStore) : Option Nat :=
  match st.phase, st.commit with
  | .validating, some c => some (c.began + st.validationClocks)
  | _, _ => none

/-- The store keeps a move that passed (R67). -/
def MoveStore.becomeValid (st : MoveStore) : MoveStore :=
  { st with phase := .valid, length := some st.moveLength, commit := none }

/-- Validation ends with no fault (R67). -/
def State.acceptMove (c : Commit) (s : State) : State :=
  let s := s.onStore MoveStore.becomeValid
  let s := s.onEngine fun e => { e with passNumber := 0 }
  let s := (s.takeRestLevels (s.store.cueSetup.getD 0)).computeDuties
  let s := s.enterNode .idle
  (s.offer (.new 5 s.stationField 7 (replyHead c.requester .done .none) .reply)).judgeArm

/-- Validation ends with a fault (R68). -/
def State.rejectMove (c : Commit) (f : LoadFault) (s : State) : State :=
  let s := (s.onStore MoveStore.discard).enterNode .idle
  s.refuseCommit c f.error f.list f.index

/-- VALIDATION_END (R66 to R68). -/
def execValidationEnd (s : State) : Host.Outcome State Fault Refusal :=
  .next (s.atInstant s.store.validationAt fun _ s =>
    match s.store.commit with
    | some c =>
      match s.store.validate with
      | some f => s.rejectMove c f
      | none => s.acceptMove c
    | none => s)

end Sys2Proof.Machine
end

