-- ==== Sys2Proof/Machine/Requests.lean ====
section
/-! DEFINITION. Meanings of the requests that move the rig, load it or set it up (R58 to R65, R96
to R99, R116, R130, R149, R164, R174, R186, R191, R26). Each handler answers at once; the node
states that take a request are those of R114. -/

namespace Sys2Proof.Machine

/-! ## Node states that take a request (R114) -/

/-- CUE, SEEK and BEGIN_LOAD. -/
def NodeState.takesSlew : NodeState → Bool
  | .idle | .armed | .halted | .ended => true
  | _ => false

/-- JOG. -/
def NodeState.takesJog : NodeState → Bool
  | .idle | .halted | .ended => true
  | _ => false

/-- RETURN. -/
def NodeState.takesReturn : NodeState → Bool
  | .halted | .ended => true
  | _ => false

/-- SET_REFERENCE and SET_LEVEL. -/
def NodeState.takesSet : NodeState → Bool
  | .idle | .armed | .halted | .ended | .stopped => true
  | _ => false

/-- STATION_RESET and ROSTER_REOPEN. -/
def NodeState.takesReset : NodeState → Bool
  | .idle | .halted | .ended | .stopped | .excluded => true
  | _ => false

/-- DONE, or CLAMPED where a value was brought to its limits. -/
def doneOr (clamped : Bool) : ReplyCode := if clamped then .clamped else .done

/-! ## CUE and SEEK (R96, R97) -/

/-- The demand of an axis moved to a destination in steps (R95). -/
def demandTo (commanded dest : Int) (speed accel : Nat) : Quantity :=
  { value := commanded * 256, dest := dest * 256, start := commanded * 256, velocity := 0,
    speedLimit := speed, accel }

/-- The quantities of a CUE or SEEK: each enabled axis toward its target (R96). -/
def State.slewQuantities (evs : Vector (Option AxisEval) 4) (s : State) :
    Vector (Option Quantity) 4 :=
  Vector.ofFn fun a =>
    match evs[a], s.store.axisSetups[a] with
    | some ev, some setup =>
      some (demandTo (s.axes[a].commandedAt s.now) ev.target setup.slewSpeed setup.slewAccel)
    | _, _ => none

/-- An axis slew is taken: off-path, its record set, SLEWING. -/
def State.beginSlew (kind : AxisSlewKind) (tPark scale : Nat)
    (moved : Vector (Option Quantity) 4) (s : State) : State :=
  (s.offPath.onEngine fun e => { e with slew := some (.axes kind tPark scale moved false) }).enterNode
    .slewing

/-- A CUE or SEEK to move time `t` is taken; what its evaluation raises finds the node SLEWING
(R96, R97). -/
def State.slewTo (kind : AxisSlewKind) (t scale : Nat) (s : State) : State :=
  let evs := s.store.evalAxes t scale
  (s.beginSlew kind t scale (s.slewQuantities evs)).raiseEval evs .request 0

/-- A scale outside 256 to 65,536 (R96). -/
def badScale (scale : Nat) : Bool := scale < 256 || 65536 < scale

/-- The CUE handler (R96). -/
def State.handleCue (r : RequestRecord) (s : State) : State :=
  let scale := fieldAt r.payload 1 3
  if ¬ s.engine.nodeState.takesSlew then s.answer r .busy
  else if s.store.phase ≠ .valid then s.refuse r .noMove
  else if badScale scale then s.answer r .range
  else (s.slewTo .cue 0 scale).answer r .done

/-- CUE (R96). -/
def execCue (s : State) : Host.Outcome State Fault Refusal :=
  .next (s.handle 2 (fun _ => true) State.handleCue)

/-- The SEEK handler (R97). -/
def State.handleSeek (r : RequestRecord) (s : State) : State :=
  let frame := fieldAt r.payload 1 2
  let scale := fieldAt r.payload 3 3
  let last := s.store.length.getD 0
  if ¬ s.engine.nodeState.takesSlew then s.answer r .busy
  else if s.store.phase ≠ .valid then s.refuse r .noMove
  else if badScale scale then s.answer r .range
  else (s.slewTo .seek (min frame last * 65536) scale).answer r (doneOr (last < frame))

/-- SEEK (R97). -/
def execSeek (s : State) : Host.Outcome State Fault Refusal :=
  .next (s.handle 3 (fun _ => true) State.handleSeek)

/-! ## JOG (R98) -/

/-- The speed limit and acceleration of a JOG (R98). -/
def MoveStore.jogRates (st : MoveStore) (a : Fin 4) : Nat × Nat :=
  if st.phase = .valid then
    match st.axisSetups[a] with
    | some setup => (setup.slewSpeed, setup.slewAccel)
    | none => (6400, 64)
  else (6400, 64)

/-- A JOG of axis `a` to a destination in steps is taken (R98). -/
def State.jogTo (a : Fin 4) (dest : Int) (s : State) : State :=
  let rates := s.store.jogRates a
  let q := demandTo (s.axes[a].commandedAt s.now) dest rates.1 rates.2
  let none4 : Vector (Option Quantity) 4 := Vector.ofFn fun _ => none
  s.beginSlew .jog 0 s.engine.path.scale (none4.set a (some q))

/-- The JOG handler (R98). -/
def State.handleJog (r : RequestRecord) (s : State) : State :=
  let code := byteAt r.payload 1
  if ¬ s.engine.nodeState.takesJog then s.answer r .busy
  else if 3 < code then s.answer r .range
  else
    let a := Fin.ofNat 4 code
    if s.store.phase = .valid ∧ s.store.axisDisabled a then s.refuse r .axisDisabled
    else
      let c := s.axes[a].commandedAt s.now
      let asked := c + signedAt r.payload 2 4
      let dest := guardTarget (s.store.softRange a) c asked
      (s.jogTo a dest).answer r (doneOr (dest != asked))

/-- JOG (R98). -/
def execJog (s : State) : Host.Outcome State Fault Refusal :=
  .next (s.handle 4 (fun _ => true) State.handleJog)

/-! ## RETURN (R99) -/

/-- The move-time quantity of a RETURN (R99). -/
def returnQuantity (tPark rate : Nat) : Quantity :=
  let vs := max 1 (min 65536 rate)
  { value := tPark, dest := 0, start := tPark, velocity := 0, speedLimit := vs,
    accel := max 1 (vs / 256) }

/-- The RETURN handler (R99). -/
def State.handleReturn (r : RequestRecord) (s : State) : State :=
  let rate := fieldAt r.payload 1 4
  if ¬ s.engine.nodeState.takesReturn then s.answer r .busy
  else if s.engine.path.onPath = false then s.refuse r .offPath
  else
    let s := s.onEngine fun e => { e with
      slew := some (.path (returnQuantity e.path.tPark rate) 0 false), moveTime := e.path.tPark }
    (s.enterNode .returning).answer r (doneOr (rate == 0 || decide (65536 < rate)))

/-- RETURN (R99). -/
def execReturnPath (s : State) : Host.Outcome State Fault Refusal :=
  .next (s.handle 5 (fun _ => true) State.handleReturn)

/-! ## BEGIN_LOAD (R57 to R60) -/

/-- The header of a BEGIN_LOAD (R194). NEAREST 0 and CHOP 1 are assumption 44. -/
def readHeader (p : List Byte) : MoveHeader :=
  { moveId := BitVec.ofNat 32 (fieldAt p 1 4)
    rounding := if byteAt p 5 = 1 then .chop else .nearest
    refRate := fieldAt p 6 2
    enables := Vector.ofFn fun t => bitOf (byteAt p 8) (5 - t.val)
    counts := Vector.ofFn fun t => fieldAt p (9 + 2 * t.val) 2
    cueCount := byteAt p 21 }

/-- The block size of a count (R57). -/
def blockSize (count : Nat) : Nat := 4 * ((count + 3) / 4)

/-- The pool demand of a load (R57). -/
def MoveHeader.poolDemand (h : MoveHeader) : Nat :=
  (trackOrder.map fun t => blockSize h.counts[t]).sum

/-- The block start of a track: the slot after the blocks of the tracks before it (R57). -/
def MoveHeader.blockStart (h : MoveHeader) (track : Fin 6) : Option Nat :=
  if h.counts[track] = 0 then none
  else some ((trackOrder.filter (· < track)).map fun t => blockSize h.counts[t]).sum

/-- A value of the header is outside its range (R58). -/
def badHeader (p : List Byte) (h : MoveHeader) : Bool :=
  1 < byteAt p 5 || (h.refRate < 1 || 500 < h.refRate) || 128 < h.cueCount

/-- The first track whose enable is no and whose key count is above 0 (R58). -/
def MoveHeader.firstKeysOnDisabled (h : MoveHeader) : Option (Fin 6) :=
  trackOrder.find? fun t => !h.enables[t] && h.counts[t] != 0

/-- REFUSED(TRACK_DISABLED) naming a track (R58): the reply is its head alone (R194), so the name
stands beside it in the queue (assumption 19). -/
def State.refuseTrack (r : RequestRecord) (track : Fin 6) (s : State) : State :=
  s.offer (.new 5 s.stationField r.kind (replyHead r.requester .refused .trackDisabled)
    (.trackReply track))

/-- The store as a taken BEGIN_LOAD leaves it (R59); the pool's old keys are not cleared. -/
def MoveStore.begin (h : MoveHeader) (st : MoveStore) : MoveStore :=
  { st with
    phase := .loading, header := some h, axisSetups := Vector.ofFn fun _ => none
    levelSetups := Vector.ofFn fun _ => none, cueSetup := none
    blockStarts := Vector.ofFn h.blockStart, cueList := []
    nextIndex := Vector.ofFn fun _ => 0, nextCue := 0, loadOrder := none, length := none
    commit := none }

/-- A level channel that the load disables goes to level 0 (R169). -/
def State.darkenDisabled (s : State) : State :=
  levelOrder.foldl (fun s c =>
    if s.store.levelDisabled c then
      s.onLevel c fun l => { l with level := 0, source := .disabled }
    else s) s

/-- An axis channel that the load disables abandons its plan (R135). -/
def State.haltDisabled (s : State) : State :=
  axisOrder.foldl (fun s a =>
    if s.store.axisDisabled a then s.onAxis a fun x => { x with plan := none } else s) s

/-- A BEGIN_LOAD is taken (R59, R60, R90). -/
def State.beginLoad (h : MoveHeader) (s : State) : State :=
  let s := s.onStore (MoveStore.begin h)
  let s := (s.onEngine fun e => { e with params := none, passNumber := 0 }).offPath
  let s := s.onReg Registration.emptied
  (s.darkenDisabled.computeDuties).haltDisabled.enterNode .loading

/-- The BEGIN_LOAD handler (R58). -/
def State.handleBeginLoad (r : RequestRecord) (s : State) : State :=
  let h := readHeader r.payload
  if ¬ s.engine.nodeState.takesSlew then s.answer r .busy
  else if badHeader r.payload h then s.answer r .range
  else
    match h.firstKeysOnDisabled with
    | some track => s.refuseTrack r track
    | none =>
      if Config.poolSlots < h.poolDemand then s.refuse r .capacity
      else (s.beginLoad h).answer r .done

/-- BEGIN_LOAD (R58). -/
def execBeginLoad (s : State) : Host.Outcome State Fault Refusal :=
  .next (s.handle 6 (fun _ => true) State.handleBeginLoad)

/-- The COMMIT_LOAD handler (R65): in LOADING it answers at the end of validation. -/
def State.handleCommitLoad (r : RequestRecord) (s : State) : State :=
  match s.store.phase with
  | .loading => s.onStore fun st =>
      { st with phase := .validating, commit := some ⟨r.requester, s.now⟩ }
  | .validating => s.answer r .busy
  | .empty | .valid => s.refuse r .notLoading

/-- COMMIT_LOAD (R65). -/
def execCommitLoad (s : State) : Host.Outcome State Fault Refusal :=
  .next (s.handle 7 (fun _ => true) State.handleCommitLoad)

/-! ## CLEAR_FAULT (R130) -/

/-- Step 1: the edge latches of inactive inputs. -/
def Supervision.clearLatches (u : Supervision) : Supervision :=
  { u with
    limitMin := u.limitMin.map ProtectionInput.clearLatch
    limitMax := u.limitMax.map ProtectionInput.clearLatch
    drive := u.drive.map ProtectionInput.clearLatch }

/-- The ESTOP input or a drive-fault input is active (R130, step 3). -/
def Supervision.stopActive (u : Supervision) : Bool :=
  u.estopLow || axisOrder.any fun a => u.drive[a].low

/-- The CLEAR_FAULT handler (R130). -/
def State.handleClearFault (r : RequestRecord) (s : State) : State :=
  let s := s.onSup Supervision.clearLatches
  let s := s.onLine fun l => { l with txOff := false, clashRun := 0 }
  if s.engine.nodeState = .stopped then
    if s.sup.stopActive then s.refuse r .inputActive
    else (s.enterNode .idle).judgeArm.answer r .done
  else s.judgeArm.answer r .done

/-- CLEAR_FAULT (R130). -/
def execClearFault (s : State) : Host.Outcome State Fault Refusal :=
  .next (s.handle 1 (fun _ => true) State.handleClearFault)

/-! ## SET_CHANNEL (R149, R150, R186) -/

/-- The four values of a SET_CHANNEL for an axis, brought into their ranges (R149). -/
def readChannelSetup (p : List Byte) : ChannelSetup :=
  { pulseWidth := max 25 (min 2500 (fieldAt p 2 2)), dirSetup := min 5000 (fieldAt p 4 2),
    ratio := min 256 (fieldAt p 6 2), invert := byteAt p 8 == 1 }

/-- A value was changed in being brought into its range. -/
def ChannelSetup.clampedFrom (p : List Byte) (c : ChannelSetup) : Bool :=
  c.pulseWidth != fieldAt p 2 2 || c.dirSetup != fieldAt p 4 2 || c.ratio != fieldAt p 6 2

/-- The reply's content: the request's bytes from 1 on, with the values as written (R194). -/
def ChannelSetup.content (code : Nat) (c : ChannelSetup) : List Byte :=
  bytesOf code 1 ++ bytesOf c.pulseWidth 2 ++ bytesOf c.dirSetup 2 ++ bytesOf c.ratio 2 ++
    bytesOf c.invert.toNat 1

/-- A channel takes a setup; a change of invert abandons the plan and turns the DIR output (R150). -/
def AxisChannel.takeSetup (now : Nat) (c : ChannelSetup) (x : AxisChannel) : AxisChannel :=
  if x.setup.invert = c.invert then { x with setup := c }
  else { x with setup := c, plan := none }.settleDir now

/-- The SET_CHANNEL handler for a request of length 9 (R149, R194). -/
def State.handleSetAxis (r : RequestRecord) (s : State) : State :=
  let code := byteAt r.payload 1
  let c := readChannelSetup r.payload
  if s.engine.nodeState ≠ .idle then s.answer r .busy
  else if 3 < code ∨ 1 < byteAt r.payload 8 then s.answer r .range
  else
    (s.onAxis (Fin.ofNat 4 code) (.takeSetup s.now c)).offerReply r
      (doneOr (c.clampedFrom r.payload)) .none (c.content code)

/-- SET_CHANNEL_AXIS (R149). -/
def execSetChannelAxis (s : State) : Host.Outcome State Fault Refusal :=
  .next (s.handle 8 (fun r => r.payload.length == 9) State.handleSetAxis)

/-- The values of a SET_CHANNEL for the station; thresholds above 1,023 become 1,023 (R186). -/
def readStationSetup (p : List Byte) : StationSetup :=
  let sens := fun i => if byteAt p i = 0 then Sensitivity.edge else .edgeLevel
  let on := fun i => byteAt p i == 1
  { undervoltage := min 1023 (fieldAt p 2 2), temperature := min 1023 (fieldAt p 4 2),
    limitSens := sens 6, driveSens := sens 7, pullLimit := on 8, pullDrive := on 9,
    pullEstop := on 10, pullEncoder := on 11 }

/-- EDGE 0 and EDGE_LEVEL 1, the order R194 lists them in (assumption 44). -/
def Sensitivity.code : Sensitivity → Nat
  | .edge => 0 | .edgeLevel => 1

/-- The reply's content, as for an axis (R194). -/
def StationSetup.content (c : StationSetup) : List Byte :=
  bytesOf 4 1 ++ bytesOf c.undervoltage 2 ++ bytesOf c.temperature 2 ++
    bytesOf c.limitSens.code 1 ++ bytesOf c.driveSens.code 1 ++ bytesOf c.pullLimit.toNat 1 ++
    bytesOf c.pullDrive.toNat 1 ++ bytesOf c.pullEstop.toNat 1 ++ bytesOf c.pullEncoder.toNat 1

/-- A station setup is taken, with the changes of sensitivity it brings (R185, R186). -/
def Supervision.takeSetup (c : StationSetup) (u : Supervision) : Supervision :=
  { u with
    setup := c
    limitMin := u.limitMin.map (.resense u.setup.limitSens c.limitSens)
    limitMax := u.limitMax.map (.resense u.setup.limitSens c.limitSens)
    drive := u.drive.map (.resense u.setup.driveSens c.driveSens) }

/-- A sensitivity or pull-up code is undefined (R186). -/
def badStationCodes (p : List Byte) : Bool :=
  [6, 7, 8, 9, 10, 11].any fun i => decide (1 < byteAt p i)

/-- A threshold was changed in being brought into its range (R186). -/
def StationSetup.clampedFrom (p : List Byte) (c : StationSetup) : Bool :=
  c.undervoltage != fieldAt p 2 2 || c.temperature != fieldAt p 4 2

/-- The SET_CHANNEL handler for a request of length 12 (R186, R194). -/
def State.handleSetStation (r : RequestRecord) (s : State) : State :=
  let c := readStationSetup r.payload
  if s.engine.nodeState ≠ .idle then s.answer r .busy
  else if byteAt r.payload 1 ≠ 4 ∨ badStationCodes r.payload then s.answer r .range
  else
    (s.onSup (.takeSetup c)).judgeArm.offerReply r (doneOr (c.clampedFrom r.payload)) .none
      c.content

/-- SET_CHANNEL_STATION (R186). -/
def execSetChannelStation (s : State) : Host.Outcome State Fault Refusal :=
  .next (s.handle 8 (fun r => r.payload.length == 12) State.handleSetStation)

/-! ## SET_DISPOSITION (R116) -/

/-- The dispositions that can be set; none for any other code (R116, R194). R194 lists the three in
parentheses, and that they count from 0 is assumption 44. -/
def settable (code : Nat) : Option Disposition :=
  if code = 1 then some .haltRig else if code = 2 then some .warn else none

/-- The SET_DISPOSITION handler (R116). -/
def State.handleSetDisposition (r : RequestRecord) (s : State) : State :=
  if s.engine.nodeState ≠ .idle then s.answer r .busy
  else
    match Cause.ofCode (byteAt r.payload 1) with
    | none => s.answer r .range
    | some c =>
      if c.fixed then s.refuse r .fixed
      else
        match settable (byteAt r.payload 2) with
        | none => s.answer r .range
        | some d =>
          (s.onSup fun u => { u with dispositions := u.dispositions.set c.idx d }).answer r .done

/-- SET_DISPOSITION (R116). -/
def execSetDisposition (s : State) : Host.Outcome State Fault Refusal :=
  .next (s.handle 9 (fun _ => true) State.handleSetDisposition)

/-! ## SET_REFERENCE (R164) -/

/-- What SET_REFERENCE with selector LATEST does (R164). -/
inductive LatestCase where
  | already | swap | notAvailable
  deriving DecidableEq, Repr

/-- The pass of the newest summary (R163). -/
def Registration.newestPass (r : Registration) : Option Nat :=
  r.history.getLast?.map Summary.passNumber

/-- The descriptor holds the given pass. -/
def holdsPass (d : Option PassDescriptor) (pass : Option Nat) : Bool :=
  match d, pass with
  | some d, some n => d.passNumber == n
  | _, _ => false

/-- R164, selector LATEST. -/
def Registration.latestCase (r : Registration) : LatestCase :=
  if holdsPass r.reference.holds r.newestPass then .already
  else
    match r.capture.holds with
    | some d =>
      if holdsPass (some d) r.newestPass && d.ending == .ended && 0 < d.framesRecorded then .swap
      else .notAvailable
    | none => .notAvailable

/-- The SET_REFERENCE handler (R164): LATEST 0, NONE 1 (assumption 44). -/
def State.handleSetReference (r : RequestRecord) (s : State) : State :=
  if ¬ s.engine.nodeState.takesSet then s.answer r .busy
  else
    match byteAt r.payload 1 with
    | 0 =>
      match s.reg.latestCase with
      | .already => s.answer r .done
      | .swap => (s.onReg Registration.swap).answer r .done
      | .notAvailable => s.refuse r .notAvailable
    | 1 =>
      (s.onReg fun g => g.setReference { g.reference with holds := none }).answer r .done
    | _ => s.answer r .range

/-- SET_REFERENCE (R164). -/
def execSetReference (s : State) : Host.Outcome State Fault Refusal :=
  .next (s.handle 10 (fun _ => true) State.handleSetReference)

/-! ## SET_LEVEL (R174) -/

/-- The SET_LEVEL handler (R174). -/
def State.handleSetLevel (r : RequestRecord) (s : State) : State :=
  let code := byteAt r.payload 1
  let asked := fieldAt r.payload 2 2
  if ¬ s.engine.nodeState.takesSet then s.answer r .busy
  else if 1 < code then s.answer r .range
  else
    let c := Fin.ofNat 2 code
    if s.store.levelDisabled c then s.refuse r .channelDisabled
    else
      let s := s.takeLevel c (min 1023 asked) .set
      s.offerReply r (doneOr (1023 < asked)) .none
        (bytesOf code 1 ++ bytesOf s.levels[c].level 2 ++ bytesOf s.levels[c].pendingDuty 2)

/-- SET_LEVEL (R174). -/
def execSetLevel (s : State) : Host.Outcome State Fault Refusal :=
  .next (s.handle 13 (fun _ => true) State.handleSetLevel)

/-! ## STATION_RESET (R191) -/

/-- Step 2: supervision's flags, counters, exception record and reset cause. -/
def Supervision.stationReset (u : Supervision) : Supervision :=
  { u.clearFlags with
    counters := Vector.ofFn fun _ => 0, resetCause := .stationReset, exception := none
    exceptionCount := 0 }

/-- A channel's own two counts become 0 (R132). -/
def AxisChannel.clearCounts (x : AxisChannel) : AxisChannel :=
  { x with deficitTicks := 0, encoderErrors := 0 }

/-- Steps 2 to 5 of R191. ARMED entered by step 5 offers its REPORT here, by R113, beside the one that
follows the emptying: the model's choice (assumption 43). -/
def State.resetStation (s : State) : State :=
  let s := (s.onSup Supervision.stationReset).onAxes AxisChannel.clearCounts
  let s := s.onEngine fun e => { e with
    nodeState := if e.nodeState = .excluded then .excluded else .idle
    reportStart := s.now, slew := none }
  s.endPulses.judgeArm

/-- A STATION_RESET's reply as a queue entry; `awaited` when its leaving brings the emptying. -/
def State.resetReply (r : RequestRecord) (awaited : Bool) (s : State) : TxEntry :=
  .new 5 s.stationField r.kind (replyHead r.requester .done .none) (.stationResetReply awaited)

/-- The STATION_RESET handler (R15, R191). -/
def State.handleStationReset (r : RequestRecord) (s : State) : State :=
  if ¬ s.engine.nodeState.takesReset then s.answer r .busy
  else
    let awaited := s.takes (s.resetReply r true) && !s.line.txOff
    let s := (s.offer (s.resetReply r awaited)).resetStation
    if awaited then s else s.resetFlush

/-- STATION_RESET (R191). -/
def execStationReset (s : State) : Host.Outcome State Fault Refusal :=
  .next (s.handle 14 (fun _ => true) State.handleStationReset)

/-! ## ROSTER_REOPEN (R26, R27) -/

/-- A ROSTER_REOPEN's reply as a queue entry; `awaited` when its leaving brings the reopening. -/
def State.reopenReply (r : RequestRecord) (awaited : Bool) (s : State) : TxEntry :=
  .new 5 s.stationField r.kind (replyHead r.requester .done .none)
    (if awaited then .rosterReopenReply else .reply)

/-- The resume state that a taken ROSTER_REOPEN sets (R26), from the node state as it is handed over;
`State.keepStopped` is what a later STOP_NOW makes of it (assumption 50). -/
def State.setResume (s : State) : State :=
  s.onRoster fun r =>
    { r with resume := if s.engine.nodeState = .excluded then r.resume else s.engine.nodeState }

/-- The ROSTER_REOPEN handler (R26, R27). -/
def State.handleRosterReopen (r : RequestRecord) (s : State) : State :=
  if ¬ s.engine.nodeState.takesReset then s.answer r .busy
  else if r.target ≠ 31 then s.refuse r .notBroadcast
  else
    let awaited := s.takes (s.reopenReply r true) && !s.line.txOff
    let s := s.setResume.offer (s.reopenReply r awaited)
    if awaited then s else s.reopen

/-- ROSTER_REOPEN (R26). -/
def execRosterReopen (s : State) : Host.Outcome State Fault Refusal :=
  .next (s.handle 15 (fun _ => true) State.handleRosterReopen)

end Sys2Proof.Machine
end

