-- ==== Sys2Proof/Machine/Readback.lean ====
section
/-! DEFINITION. Meanings of the requests that read the part: STATUS (R189, R196), READ_PASS (R165)
and READ_DEVIATIONS (R166), with the layouts of their replies (R194). -/

namespace Sys2Proof.Machine

/-! ## STATUS parts (R196) -/

/-- Bits as bytes, the first bit in bit 7 of the first byte; the last byte is filled with zeros. -/
def bitBytes : Nat → List Bool → List Byte
  | 0, _ => []
  | n + 1, bs =>
    let head := bs.take 8
    BitVec.ofNat 8 (packBits (head ++ List.replicate (8 - head.length) false)) ::
      bitBytes n (bs.drop 8)

/-- A 4-bit axis set as bits, the most significant first. -/
def setBits (v : BitVec 4) : List Bool := bitsMsb v.toNat 4

/-- The twelve limit and drive inputs in the order the FLAGS part gives them: MIN then MAX of each
axis, then the drive-fault inputs (assumption 22). -/
def Supervision.edgeInputs (u : Supervision) : List ProtectionInput :=
  (axisOrder.flatMap fun a => [u.limitMin[a], u.limitMax[a]]) ++ axisOrder.map fun a => u.drive[a]

/-- Some level channel has a condition live (R173). -/
def State.someLevel (p : LevelChannel → Bool) (s : State) : Bool :=
  levelOrder.any fun c => p s.levels[c]

/-- The live conditions of bytes 19 and 20 of the FLAGS part, from bit 15 down to bit 2. -/
def State.liveBits (s : State) : List Bool :=
  [s.sup.supply.live, s.sup.temp.live, s.sup.adcFault, s.line.txOff, s.line.lineStuck,
   s.clock.rangeHigh, s.clock.rangeLow, s.someLevel LevelChannel.supplyLow,
   s.someLevel LevelChannel.clamped, s.roster.mismatch, s.levels[0].supplyLow,
   s.levels[1].supplyLow, s.levels[0].clamped, s.levels[1].clamped]

/-- Part FLAGS (R196). -/
def State.flagsPart (s : State) : List Byte :=
  bytesOf s.sup.resetCause.code 1 ++
  bitBytes 3 (s.sup.latched.toList ++ s.sup.notes.toList) ++
  bitBytes 3 (s.sup.axisSets.toList.flatMap setBits) ++
  (s.sup.origins.toList.flatMap fun o => bytesOf (o.getD 31) 1) ++
  bitBytes 4 (s.sup.edgeInputs.map ProtectionInput.low ++ [s.sup.estopLow] ++
    s.sup.edgeInputs.map ProtectionInput.latch) ++
  bitBytes 2 s.liveBits

/-- Part COUNTERS (R196). -/
def State.countersPart (s : State) : List Byte :=
  (s.sup.counters.toList.flatMap fun n => bytesOf n 1) ++ bytesOf s.roster.beyondCount 1

/-- One byte of the eight cue lines, bit n for CUEn. -/
def State.cueByte (p : CueLine → Bool) (s : State) : List Byte :=
  bitBytes 1 ((s.cues.toList.map p).reverse)

/-- Part CHANNELS (R196). -/
def State.channelsPart (s : State) : List Byte :=
  (axisOrder.flatMap fun a =>
    bytesOf s.axes[a].deficitTicks 1 ++ bytesOf s.axes[a].encoderErrors 1) ++
  (levelOrder.flatMap fun c =>
    bytesOf s.levels[c].level 2 ++ bytesOf s.levels[c].source.code 1 ++
      bytesOf s.levels[c].activeDuty 2) ++
  s.cueByte CueLine.active ++ s.cueByte CueLine.restHigh

/-- The fields of the arithmetic exception record; while it is empty R196 states no value for its
nine bytes, and each is a free value (assumption 21). -/
def State.exceptionFields (s : State) : List Byte :=
  match s.sup.exception with
  | some x =>
    bytesOf x.code.code 1 ++ bytesOf x.track 1 ++ bytesOf x.keyIndex 2 ++
      bytesOf x.occasion.code 1 ++ bytesOf x.tick 4
  | none => (List.range 9).map fun i => Config.freeByte (s.free + i)

/-- Part EXCEPTION (R196). -/
def State.exceptionPart (s : State) : List Byte :=
  bytesOf s.sup.exception.isSome.toNat 1 ++ s.exceptionFields ++ bytesOf s.sup.exceptionCount 1

/-- The six readings in scan order. -/
def scanResults (r : ScanReadings) : List Nat :=
  [r.lampA.toNat, r.lampB.toNat, r.rigSupply.toNat, r.temp.toNat, r.refHigh.toNat, r.refLow.toNat]

/-- Part ANALOG (R196). -/
def State.analogPart (s : State) : List Byte :=
  let readings := match s.sup.readings with
    | some r => scanResults r
    | none => List.replicate 6 65535
  let u := s.sup.setup
  (readings.flatMap fun v => bytesOf v 2) ++ bytesOf u.undervoltage 2 ++ bytesOf u.temperature 2 ++
    bytesOf (packBits [u.limitSens == .edge, u.driveSens == .edge]) 1 ++
    bytesOf (packBits [u.pullLimit, u.pullDrive, u.pullEstop, u.pullEncoder]) 1

/-- The parts of the status record (R189). -/
inductive StatusPart where
  | flags | counters | channels | exception | analog
  deriving DecidableEq, Repr

/-- The parts count from 0 in the order R194 lists them in (assumption 44). -/
def StatusPart.ofCode (n : Nat) : Option StatusPart :=
  [StatusPart.flags, .counters, .channels, .exception, .analog][n]?

/-- The content of a part as it stands. -/
def State.partContent (s : State) : StatusPart → List Byte
  | .flags => s.flagsPart
  | .counters => s.countersPart
  | .channels => s.channelsPart
  | .exception => s.exceptionPart
  | .analog => s.analogPart

/-- The clear option acts on the part read (R189). -/
def State.clearPart (p : StatusPart) (s : State) : State :=
  match p with
  | .flags => s.onSup fun u => { u.clearFlags with resetCause := .none }
  | .counters => s.onSup fun u => { u with counters := Vector.ofFn fun _ => 0 }
  | .channels => s.onAxes AxisChannel.clearCounts
  | .exception => s.onSup fun u => { u with exception := none, exceptionCount := 0 }
  | .analog => s

/-- Reading an empty exception record uses nine free values (assumption 21). -/
def State.useFree (p : StatusPart) (s : State) : State :=
  if p = .exception ∧ s.sup.exception = none then s.spendFree 9 else s

/-- The STATUS handler (R189): the content is formed before the clear. -/
def State.handleStatus (r : RequestRecord) (s : State) : State :=
  let clear := byteAt r.payload 2
  match StatusPart.ofCode (byteAt r.payload 1) with
  | none => s.answer r .range
  | some p =>
    if 1 < clear then s.answer r .range
    else
      let content := s.partContent p
      let s := s.useFree p
      (if clear = 1 then s.clearPart p else s).offerReply r .done .none content

/-- STATUS (R189). -/
def execStatus (s : State) : Host.Outcome State Fault Refusal :=
  .next (s.handle 0 (fun _ => true) State.handleStatus)

/-! ## READ_PASS (R165) -/

/-- The summary at a history position, 0 being the newest. -/
def Registration.summaryAt (r : Registration) (n : Nat) : Option Summary := r.history.reverse[n]?

/-- A summary as READ_PASS reads it: the end fields of a running pass are the live items (R163, R165).
That those of halt cause and late are the halt record's is deduced (assumption 42). -/
def Registration.readSummary (halt : HaltRecord) (r : Registration) (x : Summary) : Summary :=
  if x.ending = .inProgress then
    { x with
      cause := halt.cause, late := halt.late
      framesRun := r.openFrame.getD 0 + 1, framesRecorded := r.captureFrames
      maxima := r.maxima, entryCount := r.deviations.length, overflow := r.overflow }
  else x

/-- The SUMMARY content (R194). -/
def Summary.content (x : Summary) : List Byte :=
  bytesOf x.passNumber 2 ++
  bytesOf (packBits [x.comparable, x.late, x.becameReference] * 2 ^ 21 + x.startFrame % 2 ^ 20) 3 ++
  bytesOf x.rate 2 ++
  bytesOf (x.verdict.code * 2 ^ 21 + x.ending.code * 2 ^ 19 + x.scale % 2 ^ 17) 3 ++
  bytesOf x.framesRun 4 ++ bytesOf x.framesRecorded 2 ++
  (match x.cause with
   | some c => [c.code, BitVec.ofNat 8 c.station]
   | none => [255, 31]) ++
  bytesOf x.entryCount 1 ++ bytesOf x.overflow 2

/-- One axis's maximum (R194). -/
def Maximum.content (m : Maximum) : List Byte :=
  bytesOf m.value 4 ++ bytesOf (m.frame.getD 65535) 2

/-- The MAXIMA content for two axes (R194). -/
def Summary.maximaContent (lower upper : Fin 4) (x : Summary) : List Byte :=
  bytesOf x.passNumber 2 ++ x.maxima[lower].content ++ x.maxima[upper].content

/-- The REFERENCE content (R194). -/
def Registration.referenceContent (r : Registration) : List Byte :=
  match r.reference.holds with
  | some d =>
    bytesOf 1 1 ++ bytesOf d.passNumber 2 ++ bytesOf d.rate 2 ++ bytesOf d.scale 3 ++
      bytesOf d.framesRecorded 2 ++
      bytesOf (d.sources.toList.foldl (fun v c => v * 4 + sourceCode c) 0) 1
  | none => bytesOf 0 11

/-- The midpoints of a recorded frame; none at or beyond the frames recorded. -/
def CaptureBuffer.row (b : CaptureBuffer) (frame : Nat) :
    Option (PassDescriptor × Vector (Option Int) 4) :=
  match b.holds with
  | some d =>
    if frame < d.framesRecorded then
      some (d, (b.frames.read frame).getD (Vector.ofFn fun _ => none))
    else none
  | none => none

/-- The FRAME content (R194); bit n of the present marks is AXIS_n. -/
def frameContent (frame : Nat) (d : PassDescriptor) (row : Vector (Option Int) 4) : List Byte :=
  bytesOf d.passNumber 2 ++ bytesOf frame 2 ++
    bytesOf (packBits ((row.toList.map Option.isSome).reverse)) 1 ++
    row.toList.flatMap fun m => signedBytes (m.getD 0) 4

/-- The parts of READ_PASS (R165). -/
inductive PassPart where
  | summary | maximaLow | maximaHigh | reference | frameCapture | frameReference
  deriving DecidableEq, Repr

def PassPart.ofCode (n : Nat) : Option PassPart :=
  [PassPart.summary, .maximaLow, .maximaHigh, .reference, .frameCapture, .frameReference][n]?

/-- The largest number of a part (R165); REFERENCE does not read its number. -/
def PassPart.limit : PassPart → Option Nat
  | .summary | .maximaLow | .maximaHigh => some 7
  | .reference => none
  | .frameCapture | .frameReference => some 8191

/-- The content of a part; none where it is not available (R165). -/
def Registration.passContent (halt : HaltRecord) (r : Registration) (n : Nat) : PassPart → Option (List Byte)
  | .summary => (r.summaryAt n).map fun x => (r.readSummary halt x).content
  | .maximaLow => (r.summaryAt n).map fun x => (r.readSummary halt x).maximaContent 0 1
  | .maximaHigh => (r.summaryAt n).map fun x => (r.readSummary halt x).maximaContent 2 3
  | .reference => some r.referenceContent
  | .frameCapture => (r.capture.row n).map fun x => frameContent n x.1 x.2
  | .frameReference => (r.reference.row n).map fun x => frameContent n x.1 x.2

/-- The READ_PASS handler (R165). -/
def State.handleReadPass (r : RequestRecord) (s : State) : State :=
  let n := fieldAt r.payload 2 2
  match PassPart.ofCode (byteAt r.payload 1) with
  | none => s.answer r .range
  | some p =>
    if p.limit.any (· < n) then s.answer r .range
    else
      match s.reg.passContent s.engine.halt n p with
      | some content => s.offerReply r .done .none content
      | none => s.refuse r .notAvailable

/-- READ_PASS (R165). -/
def execReadPass (s : State) : Host.Outcome State Fault Refusal :=
  .next (s.handle 11 (fun _ => true) State.handleReadPass)

/-! ## READ_DEVIATIONS (R166) -/

/-- A deviation brought into the range a reply carries (R166). -/
def clampDeviation (d : Int) : Int := max (-2147483647) (min 2147483647 d)

/-- One entry of the list (R194). -/
def DeviationEntry.content (e : DeviationEntry) : List Byte :=
  bytesOf e.frame 2 ++ bytesOf (e.grade.code * 128 + e.axis) 1 ++
    signedBytes (clampDeviation e.deviation) 4

/-- The READ_DEVIATIONS content (R194). -/
def Registration.deviationsContent (r : Registration) (first : Nat) : List Byte :=
  bytesOf r.listPass 2 ++ bytesOf r.deviations.length 1 ++ bytesOf r.overflow 2 ++
    bytesOf first 1 ++ ((r.deviations.drop first).take 2).flatMap DeviationEntry.content

/-- The READ_DEVIATIONS handler (R166). -/
def State.handleReadDeviations (r : RequestRecord) (s : State) : State :=
  let first := byteAt r.payload 1
  if 63 < first then s.answer r .range
  else s.offerReply r .done .none (s.reg.deviationsContent first)

/-- READ_DEVIATIONS (R166). -/
def execReadDeviations (s : State) : Host.Outcome State Fault Refusal :=
  .next (s.handle 12 (fun _ => true) State.handleReadDeviations)

end Sys2Proof.Machine
end

