-- ==== Sys2Proof/Machine/AxisEvents.lean ====
section
/-! DEFINITION. Meanings of the axis channels' own events: edges of STEP (R133, R138) and changes of
an encoder's inputs (R144). -/

namespace Sys2Proof.Machine

/-- The instant of a channel's next leading edge; none while its plan is empty or STEP is high. -/
def AxisChannel.leadingAt (x : AxisChannel) : Option Nat :=
  match x.plan with
  | some p => if x.stepHigh then none else some (x.edgeInstant p)
  | none => none

/-- A leading edge at instant `d` (R133, R138): the pulse is counted at it, in the held direction. -/
def AxisChannel.lead (d : Nat) (x : AxisChannel) : AxisChannel :=
  match x.plan with
  | some p =>
    { x with
      commanded := if x.increasing then x.commanded + 1 else x.commanded - 1
      commandedBefore := x.commanded
      stepHigh := true, trailing := some (d + p.pulseWidth), lastEdge := some d
      plan := { p with emitted := p.emitted + 1 }.orEmpty }
  | none => x

/-- STEP_LEADING_EDGE (R133, R138). -/
def execStepLeadingEdge (axis : Fin 4) (s : State) : Host.Outcome State Fault Refusal :=
  .next (s.atInstant s.axes[axis].leadingAt fun d s => (s.onAxis axis (.lead d)).judgeArm)

/-- The instant of the trailing edge of a pulse in progress. -/
def AxisChannel.trailingAt (x : AxisChannel) : Option Nat :=
  if x.stepHigh then x.trailing else none

/-- STEP_TRAILING_EDGE (R133): STEP goes low, and a direction change that was due is made, after a
STOP_NOW too, of which R143 says that DIR keeps its level (assumption 41). -/
def execStepTrailingEdge (axis : Fin 4) (s : State) : Host.Outcome State Fault Refusal :=
  .next (s.atInstant s.axes[axis].trailingAt fun d s =>
    s.onAxis axis fun x => { x with stepHigh := false }.settleDir d)

/-- The place of an encoder's inputs in the cycle of R144. -/
def quadrature : Bool × Bool → Nat
  | (false, false) => 0 | (true, false) => 1 | (true, true) => 2 | (false, true) => 3

/-- The encoder count becomes `v` at `now`; the value it had as this base clock began is kept for
the reads of this base clock (R144). -/
def AxisChannel.setEncoder (now : Nat) (v : Word32) (x : AxisChannel) : AxisChannel :=
  { x with encoder := v, encoderBefore := x.encoderAt now, encoderChanged := some now }

/-- A sample of the encoder's inputs at `now` (R144): the one at base clock 0, the first after a
reset (R132, assumption 46), is not counted; a step of the cycle counts with its sense, and two
changes at once are an illegal transition. -/
def AxisChannel.sample (now : Nat) (ab : Bool × Bool) (x : AxisChannel) : AxisChannel :=
  let y := { x with encoderInputs := ab }
  if now = 0 then y
  else
    match (quadrature ab + 4 - quadrature x.encoderInputs) % 4 with
    | 1 => y.setEncoder now (if x.setup.invert then x.encoder - 1 else x.encoder + 1)
    | 3 => y.setEncoder now (if x.setup.invert then x.encoder + 1 else x.encoder - 1)
    | 2 => { y with encoderErrors := bump8 x.encoderErrors }
    | _ => y

/-- ENCODER_CHANGE (R144). -/
def execEncoderChange (t : Nat) (axis : Fin 4) (a b : Bool) (s : State) :
    Host.Outcome State Fault Refusal :=
  let s := s.reach t
  .next (s.onAxis axis (.sample s.now (a, b)))

end Sys2Proof.Machine
end

