-- ==== Sys2Proof/Machine/SupervisionEvents.lean ====
section
/-! DEFINITION. Meanings of the protection inputs' edges (R141, R142, R184), of the analog scan
(R181 to R183) and of the PWM period boundary (R167, R168). -/

namespace Sys2Proof.Machine

/-! ## Protection inputs (R184) -/

/-- LIMIT_INPUT_FALLING (R141, R184): the cause is raised, the channel loses its forbidden pulses, and
the arm conditions are judged afresh. -/
def execLimitInputFalling (t : Nat) (axis : Fin 4) (side : LimitEnd) (s : State) :
    Host.Outcome State Fault Refusal :=
  let s := (s.reach t).onSup fun u =>
    u.setLimit axis side ((u.limit axis side).fall u.setup.limitSens)
  .next (((s.suppress axis).raise .limitSwitch (some axis) none).judgeArm)

/-- LIMIT_INPUT_RISING (R184). -/
def execLimitInputRising (t : Nat) (axis : Fin 4) (side : LimitEnd) (s : State) :
    Host.Outcome State Fault Refusal :=
  .next (((s.reach t).onSup fun u =>
    u.setLimit axis side (u.limit axis side).rise).judgeArm)

/-- DRIVE_FAULT_INPUT_FALLING (R142, R184). -/
def execDriveFaultInputFalling (t : Nat) (axis : Fin 4) (s : State) :
    Host.Outcome State Fault Refusal :=
  let s := (s.reach t).onSup fun u =>
    { u with drive := u.drive.set axis (u.drive[axis].fall u.setup.driveSens) }
  .next (((s.suppress axis).raise .driveFault (some axis) none).judgeArm)

/-- DRIVE_FAULT_INPUT_RISING (R184). -/
def execDriveFaultInputRising (t : Nat) (axis : Fin 4) (s : State) :
    Host.Outcome State Fault Refusal :=
  .next (((s.reach t).onSup fun u =>
    { u with drive := u.drive.set axis u.drive[axis].rise }).judgeArm)

/-- ESTOP_FALLING (R184); ESTOP is always EDGE_LEVEL. -/
def execEstopFalling (t : Nat) (s : State) : Host.Outcome State Fault Refusal :=
  let s := (s.reach t).onSup fun u => { u with estopLow := true }
  .next ((s.raise .estop none none).judgeArm)

/-- ESTOP_RISING (R184). -/
def execEstopRising (t : Nat) (s : State) : Host.Outcome State Fault Refusal :=
  .next (((s.reach t).onSup fun u => { u with estopLow := false }).judgeArm)

/-! ## The analog scan (R181 to R183) -/

/-- The reference check (R182). -/
def referencesPass (r : ScanReadings) : Bool :=
  1000 ≤ r.refHigh.toNat && r.refLow.toNat ≤ 23

/-- One judged scan at a threshold judgement (R183): `beyond` while clear, `recovered` while live. -/
def Judgement.judge (beyond recovered : Bool) (j : Judgement) : Judgement :=
  if j.live then
    if recovered then
      if 4 ≤ j.recovery + 1 then { live := false, run := j.run, recovery := 0 }
      else { j with recovery := j.recovery + 1 }
    else { j with recovery := 0 }
  else if beyond then
    if 4 ≤ j.run + 1 then { live := true, run := 0, recovery := j.recovery }
    else { j with run := j.run + 1 }
  else { j with run := 0 }

/-- SUPPLY_UV's judgement (R183). -/
def Supervision.judgeSupply (r : ScanReadings) (u : Supervision) : Judgement :=
  u.supply.judge (r.rigSupply.toNat < u.setup.undervoltage)
    (min 1023 (u.setup.undervoltage + 8) ≤ r.rigSupply.toNat)

/-- TEMP_HIGH's judgement (R183). -/
def Supervision.judgeTemp (r : ScanReadings) (u : Supervision) : Judgement :=
  u.temp.judge (u.setup.temperature < r.temp.toNat) (r.temp.toNat ≤ u.setup.temperature - 8)

/-- Step 1 of R181: the reference check. -/
def State.checkReferences (r : ScanReadings) (s : State) : State :=
  if referencesPass r then s.onSup fun u => { u with adcFault := false }
  else if s.sup.adcFault then s
  else (s.onSup fun u => { u with adcFault := true }).raise .adcFault none none

/-- Step 3 of R181: the supply first, then the temperature; each raised as it becomes live. -/
def State.judgeScan (r : ScanReadings) (s : State) : State :=
  let newSupply := s.sup.judgeSupply r
  let newly := newSupply.live && !s.sup.supply.live
  let s := s.onSup fun u => { u with supply := newSupply }
  let s := if newly then s.raise .supplyUv none none else s
  let newTemp := s.sup.judgeTemp r
  let newly := newTemp.live && !s.sup.temp.live
  let s := s.onSup fun u => { u with temp := newTemp }
  if newly then s.raise .tempHigh none none else s

/-- The LAMP result of a level channel. -/
def lampOf (r : ScanReadings) (c : Fin 2) : Nat :=
  if c = 0 then r.lampA.toNat else r.lampB.toNat

/-- Step 4 of R181, at the level channels (R172). -/
def State.handLamps (r : ScanReadings) (s : State) : State :=
  (levelOrder.foldl (fun s c =>
    if s.sup.adcFault then s else s.onLevel c fun l => { l with supply := some (lampOf r c) })
    s).computeDuties

/-- A judged scan (R181). -/
def State.takeScan (r : ScanReadings) (s : State) : State :=
  let s := (s.checkReferences r).onSup fun u => { u with readings := some r }
  let s := if s.sup.adcFault then s else s.judgeScan r
  (s.handLamps r).judgeArm

/-- The instant at which the running scan completes (R181). -/
def Supervision.scanAt (u : Supervision) : Nat := u.scanStart + Config.scanClocks

/-- SCAN_COMPLETE (R181): the first scan after a reset is discarded. -/
def execScanComplete (readings : ScanReadings) (s : State) : Host.Outcome State Fault Refusal :=
  let d := s.sup.scanAt
  let first := s.sup.firstScan
  let s := (s.reach d).onSup fun u => { u with scanStart := d, firstScan := false }
  .next (if first then s else s.takeScan readings)

/-! ## The PWM period boundary (R167, R168) -/

/-- PWM_PERIOD_BOUNDARY (R168): both active duties take their pending duties. -/
def execPwmPeriodBoundary (s : State) : Host.Outcome State Fault Refusal :=
  let d := s.pwmStart + Config.pwmClocks
  let s := s.reach d
  .next { s with
    pwmStart := d
    levels := s.levels.map fun l => { l with activeDuty := l.pendingDuty } }

end Sys2Proof.Machine
end

