-- ==== Sys2Proof/Machine/BaseClock.lean ====
section
/-! DEFINITION. What the part does of itself while no command waits (assumption 5): the events whose
instants its own rules fix come when those instants have come, the earliest first, and where none is
due the base clock counts on. -/

namespace Sys2Proof.Machine

/-- The handler's command for the head of the request queue (R16, R17, R65, 1.7). -/
def handlerOf (r : RequestRecord) : Instr :=
  match r.kind.toNat with
  | 0 => .status | 1 => .clearFault | 2 => .cue | 3 => .seek | 4 => .jog | 5 => .returnPath
  | 6 => .beginLoad | 7 => .commitLoad
  | 8 => if r.payload.length = 9 then .setChannelAxis else .setChannelStation
  | 9 => .setDisposition | 10 => .setReference | 11 => .readPass | 12 => .readDeviations
  | 13 => .setLevel | 14 => .stationReset | _ => .rosterReopen

/-- The dispatcher's next command (R16). -/
def State.dispatchEvent (s : State) : Option Instr :=
  s.line.requestQueue.head?.map fun r =>
    if ¬ r.lengthDefined then .dispatchUnknown
    else if s.store.phase = .validating then .dispatchBusy
    else handlerOf r

/-- The instant of the roster's closing (R22). -/
def State.closingAt (s : State) : Option Nat :=
  if s.roster.phase = .settling ∧ s.announcesDone then
    some (s.roster.quietStart + Config.quietClocks)
  else none

/-- The instant at which an announce delay expires (R20). -/
def State.announceAt (s : State) : Option Nat :=
  match s.roster.phase, s.roster.schedule with
  | .settling, .delay due => some due
  | _, _ => none

/-- The part's own events, each with its instant; those that follow at once carry instant 0. Where
instants are equal the earlier in this list comes first (assumption 5). -/
def State.ownEvents (s : State) : List (Option Nat × Instr) :=
  [(if s.line.flushDue then some 0 else none, .stationResetFlush),
   (if s.line.reopenDue then some 0 else none, .rosterReopening)] ++
  (s.dispatchEvent.toList.map fun c => (some 0, c)) ++
  (axisOrder.map fun a => (s.axes[a].trailingAt, .stepTrailingEdge a)) ++
  [(s.clock.holdoverAt, .holdoverDeadline), (s.clock.ownMarkAt .coasting, .coastingMark),
   (s.localEntryAt, .localEntry), (s.clock.ownMarkAt .localMarks, .localMark),
   (s.clock.timeoutAt, .acquireTimeout), (s.clock.tickAt.map Prod.fst, .passTick),
   (some s.clock.slewAt, .slewTick), (s.store.validationAt, .validationEnd),
   (s.closingAt, .rosterClosing), (s.announceAt, .announceDelayExpiry),
   (s.reportAt, .reportTimerExpiry), (some (s.pwmStart + Config.pwmClocks), .pwmPeriodBoundary)] ++
  (axisOrder.map fun a => (s.axes[a].leadingAt, .stepLeadingEdge a))

/-- The earlier of two events, the first where their instants are equal. -/
def earlier (now : Nat) (best : Option (Nat × Instr)) (e : Option Nat × Instr) :
    Option (Nat × Instr) :=
  match e.1, best with
  | none, _ => best
  | some d, none => if d ≤ now then some (d, e.2) else none
  | some d, some b => if d < b.1 then some (d, e.2) else some b

/-- The own event that is due, if any. -/
def State.dueEvent (s : State) : Option Instr :=
  (s.ownEvents.foldl (earlier s.now) none).map Prod.snd

/-- One base clock passes. -/
def State.baseClock (s : State) : State := { s with now := s.now + 1 }

end Sys2Proof.Machine
end

