-- ==== Sys2Proof/Machine/Dispatch.lean ====
section
/-! DEFINITION. The dispatch: one arm per constructor of `Instr`, each one direct call of its meaning. -/

namespace Sys2Proof.Machine

/-- The effect of a command on everything but the queue of waiting commands. -/
def exec (i : Instr) (s : State) : Host.Outcome State Fault Refusal :=
  match i with
  | .powerOnReset rate participant => Sys2Proof.Machine.execPowerOnReset rate participant s
  | .pinReset rate participant => Sys2Proof.Machine.execPinReset rate participant s
  | .quietCountReached t => Sys2Proof.Machine.execQuietCountReached t s
  | .intermissionEnd t => Sys2Proof.Machine.execIntermissionEnd t s
  | .lineStuck t => Sys2Proof.Machine.execLineStuck t s
  | .transmitStart t => Sys2Proof.Machine.execTransmitStart t s
  | .arbitrationLost t => Sys2Proof.Machine.execArbitrationLost t s
  | .clash t => Sys2Proof.Machine.execClash t s
  | .transmitComplete t => Sys2Proof.Machine.execTransmitComplete t s
  | .formError t => Sys2Proof.Machine.execFormError t s
  | .checkError t => Sys2Proof.Machine.execCheckError t s
  | .undefinedClass t => Sys2Proof.Machine.execUndefinedClass t s
  | .stationResetFlush => Sys2Proof.Machine.execStationResetFlush s
  | .rosterReopening => Sys2Proof.Machine.execRosterReopening s
  | .requestArrival t station kind payload => Sys2Proof.Machine.execRequestArrival t station kind payload s
  | .dispatchUnknown => Sys2Proof.Machine.execDispatchUnknown s
  | .dispatchBusy => Sys2Proof.Machine.execDispatchBusy s
  | .announceDelayExpiry => Sys2Proof.Machine.execAnnounceDelayExpiry s
  | .announce t station payload => Sys2Proof.Machine.execAnnounce t station payload s
  | .rosterClosing => Sys2Proof.Machine.execRosterClosing s
  | .digest t station payload => Sys2Proof.Machine.execDigest t station payload s
  | .report t station payload => Sys2Proof.Machine.execReport t station payload s
  | .realMark t roll => Sys2Proof.Machine.execRealMark t roll s
  | .shutterFall t => Sys2Proof.Machine.execShutterFall t s
  | .holdoverDeadline => Sys2Proof.Machine.execHoldoverDeadline s
  | .coastingMark => Sys2Proof.Machine.execCoastingMark s
  | .localEntry => Sys2Proof.Machine.execLocalEntry s
  | .localMark => Sys2Proof.Machine.execLocalMark s
  | .acquireTimeout => Sys2Proof.Machine.execAcquireTimeout s
  | .passTick => Sys2Proof.Machine.execPassTick s
  | .slewTick => Sys2Proof.Machine.execSlewTick s
  | .reportTimerExpiry => Sys2Proof.Machine.execReportTimerExpiry s
  | .start t station payload => Sys2Proof.Machine.execStart t station payload s
  | .decline t station payload => Sys2Proof.Machine.execDecline t station payload s
  | .halt t station payload => Sys2Proof.Machine.execHalt t station payload s
  | .genericHalt t station payload => Sys2Proof.Machine.execGenericHalt t station payload s
  | .axisSetup t station payload => Sys2Proof.Machine.execAxisSetup t station payload s
  | .levelSetup t station payload => Sys2Proof.Machine.execLevelSetup t station payload s
  | .cueSetup t station payload => Sys2Proof.Machine.execCueSetup t station payload s
  | .keys t station payload => Sys2Proof.Machine.execKeys t station payload s
  | .levelKeys t station payload => Sys2Proof.Machine.execLevelKeys t station payload s
  | .cues t station payload => Sys2Proof.Machine.execCues t station payload s
  | .status => Sys2Proof.Machine.execStatus s
  | .clearFault => Sys2Proof.Machine.execClearFault s
  | .cue => Sys2Proof.Machine.execCue s
  | .seek => Sys2Proof.Machine.execSeek s
  | .jog => Sys2Proof.Machine.execJog s
  | .returnPath => Sys2Proof.Machine.execReturnPath s
  | .beginLoad => Sys2Proof.Machine.execBeginLoad s
  | .commitLoad => Sys2Proof.Machine.execCommitLoad s
  | .validationEnd => Sys2Proof.Machine.execValidationEnd s
  | .setChannelAxis => Sys2Proof.Machine.execSetChannelAxis s
  | .setChannelStation => Sys2Proof.Machine.execSetChannelStation s
  | .setDisposition => Sys2Proof.Machine.execSetDisposition s
  | .setReference => Sys2Proof.Machine.execSetReference s
  | .readPass => Sys2Proof.Machine.execReadPass s
  | .readDeviations => Sys2Proof.Machine.execReadDeviations s
  | .setLevel => Sys2Proof.Machine.execSetLevel s
  | .stationReset => Sys2Proof.Machine.execStationReset s
  | .rosterReopen => Sys2Proof.Machine.execRosterReopen s
  | .stepLeadingEdge axis => Sys2Proof.Machine.execStepLeadingEdge axis s
  | .stepTrailingEdge axis => Sys2Proof.Machine.execStepTrailingEdge axis s
  | .encoderChange t axis a b => Sys2Proof.Machine.execEncoderChange t axis a b s
  | .limitInputFalling t axis side => Sys2Proof.Machine.execLimitInputFalling t axis side s
  | .limitInputRising t axis side => Sys2Proof.Machine.execLimitInputRising t axis side s
  | .driveFaultInputFalling t axis => Sys2Proof.Machine.execDriveFaultInputFalling t axis s
  | .driveFaultInputRising t axis => Sys2Proof.Machine.execDriveFaultInputRising t axis s
  | .estopFalling t => Sys2Proof.Machine.execEstopFalling t s
  | .estopRising t => Sys2Proof.Machine.execEstopRising t s
  | .scanComplete readings => Sys2Proof.Machine.execScanComplete readings s
  | .pwmPeriodBoundary => Sys2Proof.Machine.execPwmPeriodBoundary s
  | .startBit t => Sys2Proof.Machine.execStartBit t s
  | .reply t station kind payload => Sys2Proof.Machine.execReply t station kind payload s

end Sys2Proof.Machine
end

