-- ==== Sys2Proof/Machine/Step.lean ====
section
/-! DEFINITION. One step of the block, and how the host puts a command in front of its queue. -/

namespace Sys2Proof.Machine

/-- One step: the command at the front of the queue, on the queue's rest; with no command waiting,
the part's own event that is due, or one base clock (assumption 5). -/
def step (s : State) : Host.Outcome State Fault Refusal :=
  match s.pending with
  | c :: rest => exec c { s with pending := rest }
  | [] =>
    match s.dueEvent with
    | some c => exec c s
    | none => .next s.baseClock

/-- The state with the command that a word spells put at the front of its queue; no word spells
one, since the table gives no row any bits. -/
def State.withFetchWord (s : State) (nbits w : Nat) : State :=
  match decodeTableWord nbits w with
  | some c => { s with pending := c :: s.pending }
  | none => s

end Sys2Proof.Machine
end

