-- ==== Sys2Proof/Safety.lean ====
section
/-! DEFINITION. What counts as a safe state: the bounds and forms that every state of the part keeps,
each in the terms the claims use. -/

namespace Sys2Proof.Machine

/-- The numbered cells stand in their canonical form: the key pool (4.3) and both buffers (9.1). -/
def State.cellsWf (s : State) : Bool :=
  s.store.pool.wf && s.reg.buffer1.frames.wf && s.reg.buffer2.frames.wf

/-- The transmit queue holds at most 8 entries (R12) and the request queue at most 4 (R16). -/
def State.queuesFit (s : State) : Bool :=
  s.line.txQueue.length ≤ Config.txCapacity && s.line.requestQueue.length ≤ Config.requestCapacity

/-- The roster holds at most 24 entries (2.1). -/
def State.rosterFits (s : State) : Bool := s.roster.table.length ≤ Config.rosterCapacity

/-- Every counter of supervision is an 8-bit number (R188). -/
def State.countersFit (s : State) : Bool := s.sup.counters.all (· ≤ 255)

/-- The deviation list and the pass history keep their capacities (R159, R163). -/
def State.registrationFits (s : State) : Bool :=
  s.reg.deviations.length ≤ Config.deviationCapacity && s.reg.history.length ≤ Config.historyCapacity

/-- No channel owes a pulse: every plan is empty (R143). -/
def State.plansEmpty (s : State) : Bool := axisOrder.all fun a => s.axes[a].plan.isNone

/-- All the bounds and forms above that every step keeps. -/
def State.bounded (s : State) : Bool :=
  s.cellsWf && s.queuesFit && s.rosterFits && s.countersFit && s.registrationFits

/-- The transmit queue stands in the order of R12: lower arbitration values first. -/
abbrev State.queueOrdered (s : State) : Prop :=
  s.line.txQueue.Pairwise fun a b => a.value ≤ b.value

/-- R12: at most one entry is in transmission, and one is just while the interface transmits. -/
abbrev State.oneAttempt (s : State) : Prop :=
  (s.line.txQueue.countP TxEntry.sending) = if s.line.state = .transmitting then 1 else 0

/-- `e` is the entry in transmission, between the entries before it and those after it. -/
abbrev State.attempt (s : State) (before : List TxEntry) (e : TxEntry) (behind : List TxEntry) :
    Prop :=
  s.line.txQueue = before ++ e :: behind ∧ e.sending = true ∧
    ∀ x ∈ before ++ behind, x.sending = false

/-- The transmit queue takes one more telegram that is no REPORT (R13). -/
abbrev State.hasRoom (s : State) : Prop :=
  s.engine.nodeState ≠ .excluded ∧ s.line.txQueue.length < 8

/-- The dispatcher hands over `r`, a request of the given kind, with `rest` behind it (R16, R65). -/
abbrev State.hands (kind : Nat) (r : RequestRecord) (rest : List RequestRecord) (s : State) : Prop :=
  s.line.requestQueue = r :: rest ∧ r.kind.toNat = kind ∧
    definedLength r.kind (1 + r.body.length) = true ∧ s.store.phase ≠ .validating

/-- The state after the dispatcher has taken the head and its reply has been queued by R12 for its
owner: the requester's number, the reply code, the reason and the content (R17, R194). -/
def State.repliedFor (owner : TxOwner) (r : RequestRecord) (rest : List RequestRecord)
    (code reason : Nat) (content : List Byte) (s : State) : State :=
  let reply : TxEntry := .new 5 s.stationField r.kind
    ([BitVec.ofNat 8 r.requester.toNat, BitVec.ofNat 8 code, BitVec.ofNat 8 reason] ++ content) owner
  { s with line := { s.line with requestQueue := rest, txQueue := placeEntry reply s.line.txQueue } }

/-- The state after a plain reply: one whose leaving nothing waits for. -/
def State.replied (r : RequestRecord) (rest : List RequestRecord) (code reason : Nat)
    (content : List Byte) (s : State) : State :=
  s.repliedFor .reply r rest code reason content

/-- A reply with this code and reason to the request `r` waits in the transmit queue. -/
abbrev State.hasReply (r : RequestRecord) (code reason : Nat) (s : State) : Prop :=
  ∃ e ∈ s.line.txQueue, e.cls = 5 ∧ e.kind = r.kind ∧
    e.payload.take 3 = [BitVec.ofNat 8 r.requester.toNat, BitVec.ofNat 8 code, BitVec.ofNat 8 reason]

/-- The state once a telegram has been read without error, at instant `t` or later (R4, R8); its end
field has ended any dominant run (R9). -/
def State.received (t : Nat) (s : State) : State :=
  { s with now := max s.now t, line := { s.line with state := .intermission, dominantRun := 0 } }

/-- A REQUEST or LOAD with this target is for this node (R11). -/
abbrev State.addressed (target : Byte) (s : State) : Prop :=
  s.engine.nodeState ≠ .settling ∧
    (target = 31 ∨ s.engine.nodeState ≠ .excluded ∧ s.roster.station = some target.toNat)

/-- The state once the dispatcher has taken the head of the request queue (R16). -/
def State.dispatched (rest : List RequestRecord) (s : State) : State :=
  { s with line := { s.line with requestQueue := rest } }

/-- The next paced pass tick has index `j` and comes at instant `d`, the clock's period being `p` (R46). -/
def State.tickComes (j d p : Nat) (s : State) : Prop :=
  (s.clock.state = .locked ∨ s.clock.state = .holdover ∨ s.clock.state = .coasting ∨
    s.clock.state = .localMarks) ∧
  (s.clock.tickIndex = none ∧ j = 0 ∨ ∃ k, s.clock.tickIndex = some k ∧ k < 15 ∧ j = k + 1) ∧
  s.clock.period = some p ∧ ∃ base, s.clock.timingBase = some base ∧ d = base + j * p / 16

/-- A cause is latched (R187). -/
def State.latchedCause (s : State) (c : Cause) : Bool := s.sup.latched[c.idx]

/-- The cue lines after one pass tick's countdown of their pulses (R177). -/
def State.countedCues (s : State) : Vector CueLine 8 :=
  Vector.ofFn fun i =>
    match s.cues[i].pulseEnd with
    | none => s.cues[i]
    | some l => if l ≤ 1 then { s.cues[i] with active := false, pulseEnd := none }
                else { s.cues[i] with pulseEnd := some (l - 1) }

/-- A cue line of index `i` after one crossing entry (R176): SET is action 0, CLEAR 1 and PULSE 2, and an
entry leaves a line outside its mask as it was. -/
def CueEntry.leaves (entry : CueEntry) (i : Fin 8) (line : CueLine) : CueLine :=
  if entry.lines.getLsbD i then
    if entry.action = 0 then { line with active := true, pulseEnd := none }
    else if entry.action = 1 then { line with active := false, pulseEnd := none }
    else if entry.action = 2 then { line with active := true, pulseEnd := some entry.pulse }
    else line
  else line

/-- Cue line `i` after a pass tick that crosses the entries between the move times `prev` and `time`:
its pulse is counted down, and then the entries act in their order (R87, R176, R177). -/
def State.cueAfter (s : State) (prev : Option Nat) (time : Nat) (i : Fin 8) : CueLine :=
  (s.store.crossings prev time).foldl (fun line entry => entry.leaves i line) s.countedCues[i]

/-- From `s` to `u` the cue lines have taken a tick that ends the pass (R88). A clock that leaves COASTING
or LOCAL with the pass ends the pulses that are left (R43, R44, R178); `here` is `s` at the tick's instant. -/
def State.cuesAtEnd (s here : State) (prev : Option Nat) (time : Nat) (u : State) : Prop :=
  let frees := s.clock.state = .coasting ∨ s.clock.state = .localMarks ∧ here.localHolds = false
  ∀ i : Fin 8,
    (¬ frees → u.cues[i] = s.cueAfter prev time i) ∧
    (frees → (s.cueAfter prev time i).pulseEnd = none → u.cues[i] = s.cueAfter prev time i) ∧
    (frees → (s.cueAfter prev time i).pulseEnd ≠ none →
      u.cues[i] = { s.cueAfter prev time i with active := false, pulseEnd := none })

/-- From `s` to `u` a counted mark has come in a pass (R45, R47, R155): where the pass goes on, the tick
number has risen by the unissued ticks of the ending frame and by tick 0, and the open pass frame by 1
while RECORDING. It does go on at the full rate where those ticks stay short of T_end. -/
def State.frameTurned (s u : State) : Prop :=
  let left := match s.clock.tickIndex with
    | none => 16
    | some j => 15 - j
  ∀ pass : PassParams, s.engine.nodeState.inPass = true → s.engine.params = some pass →
    s.engine.ticked = true →
    (u.engine.nodeState.inPass = true → u.engine.tick = s.engine.tick + left + 1 ∧
      (s.reg.recording = true → u.reg.openFrame = s.reg.openFrame.map (· + 1)) ∧
      (s.reg.recording = false → u.reg.openFrame = s.reg.openFrame)) ∧
    (s.engine.nodeState = .running → s.engine.halt.rampStart = none → 16 ≤ pass.haltLength →
      (s.engine.tick + left + 1) * pass.rate < s.store.tEnd → u.engine.nodeState.inPass = true)

/-- The six arm conditions of R91. A clock in LOCAL is one whose conditions stand (R44), and a node with
a place in a CLOSED roster is neither SETTLING nor EXCLUDED (R23). -/
def State.armable (s : State) : Prop :=
  s.store.phase = .valid ∧
  (s.engine.path.onPath = true ∧ s.engine.path.tPark = 0) ∧
  (∀ a : Fin 4, s.store.header.map (fun h => h.enables[a.val]) = some true →
    ∃ ev, s.store.evalAxis 0 s.engine.path.scale a = some ev ∧
      s.axes[a].commanded.toInt = ev.target) ∧
  (s.clock.state = .locked ∨ s.clock.state = .localMarks ∧ s.localHolds = true) ∧
  (s.roster.phase = .closed ∧ s.roster.ownPosition ≠ none ∧ s.roster.mismatch = false) ∧
  (s.sup.estopLow = false ∧
    (∀ (a : Fin 4) (side : LimitEnd),
      (s.sup.setup.limitSens = .edgeLevel → (s.sup.limit a side).low = false) ∧
      (s.sup.setup.limitSens = .edge → (s.sup.limit a side).latch = false)) ∧
    (∀ a : Fin 4,
      (s.sup.setup.driveSens = .edgeLevel → s.sup.drive[a].low = false) ∧
      (s.sup.setup.driveSens = .edge → s.sup.drive[a].latch = false)) ∧
    s.line.txOff = false ∧ s.line.lineStuck = false ∧ s.sup.supply.live = false)

/-- Pass tick `n` is the report instant of station `number` in pass frame `frame`, with report
interval `interval` (R112). -/
abbrev reportInstant (number interval n frame : Nat) : Prop :=
  n = 16 * frame + 4 + number % 8 ∧ frame % interval = 0

/-- From `s` to `u` every watched participant has had its missing-report check of pass tick `n`, and no
other entry has changed (R32). -/
def State.missingChecked (interval n : Nat) (s u : State) : Prop :=
  ∀ (i : Nat) (e : RosterEntry), s.roster.table[i]? = some e →
    (let checked := e.watched = true ∧ ∃ frame, interval ≤ frame ∧ reportInstant i interval n frame
     (¬ checked → u.roster.table[i]? = some e) ∧
     (checked → e.heard = true → u.roster.table[i]? = some { e with heard := false }) ∧
     (checked → e.heard = false → e.missingRun = 0 →
       u.roster.table[i]? = some { e with missingRun := 1 }) ∧
     (checked → e.heard = false → e.missingRun ≠ 0 → u.latchedCause .peerAbsent = true ∧
       u.roster.table[i]? = some { e with missingRun := 2, watched := false }))

/-- From `base`, with a telegram gone from the queue, to `u` the block that queued it has taken its
outcome, SENT or another (R15): the own HALT is no longer on its way (R119, R123), an ANNOUNCE counts or
draws a new delay (R20, R21), the reply to a STATION_RESET makes the emptying due (R15, R191) and the
reply to a ROSTER_REOPEN the reopening (R27). -/
def State.outcomeTaken (owner : TxOwner) (sent : Bool) (base u : State) : Prop :=
  let r := if sent then { base.roster with quietStart := base.now } else base.roster
  let seq := 1103515245#32 * r.announceSeq + 12345#32
  let drawn : Roster := { r with
    announceSeq := seq, schedule := .delay (base.now + 50000 * (2 + seq.toNat / 65536 % 39)) }
  let count := r.announceCount + 1
  (owner ∉ [TxOwner.halt true, .announce, .stationResetReply true, .rosterReopenReply] → u = base) ∧
  (owner = .halt true → u = { base with engine := { base.engine with
    halt := { base.engine.halt with ownHalt := none } } }) ∧
  (owner = .stationResetReply true → u = { base with line := { base.line with flushDue := true } }) ∧
  (owner = .rosterReopenReply → u = { base with line := { base.line with reopenDue := true } }) ∧
  (owner = .announce → base.roster.phase ≠ .settling → u = base) ∧
  (owner = .announce → base.roster.phase = .settling → u = { base with roster :=
    if r.schedule ≠ .offered then r
    else if sent = false then drawn
    else if count < 3 then { drawn with announceCount := count }
    else { r with announceCount := count, schedule := .done } })

/-- What a channel captures of a source at instant `now` (R147): no leading edge driven and no encoder
change counted in that base clock (R138, R144). -/
def AxisChannel.captured (now : Nat) (source : CaptureSource) (x : AxisChannel) : Int :=
  if source = .encoder then
    (if x.encoderChanged = some now then x.encoderBefore else x.encoder).toInt
  else (if x.lastEdge = some now then x.commandedBefore else x.commanded).toInt

/-- From `s` to `u` each channel has taken an OPEN at the instant of `u` (R50, R147): the source of its
ratio, and the roll count of the frame that begins. -/
def State.channelsOpen (s u : State) : Prop :=
  ∀ a : Fin 4,
    (let source : CaptureSource := if 0 < s.axes[a].setup.ratio then .encoder else .commanded
     u.axes[a].openCapture = some
       { value := s.axes[a].captured u.now source, roll := u.clock.roll, source := source })

/-- The frames that the channels hold are closed at instant `now`, by a CLOSE or by the next OPEN: each
hands the midpoint of its open capture and this instant's, with the frame's roll count (R148). -/
def State.framesClose (byClose : Bool) (now : Nat) (s : State) : Prop :=
  ∀ (a : Fin 4) (o : OpenCapture), s.axes[a].openCapture = some o →
    (({ s with now := now } : State).midpoints byClose)[a] = some
      { value := (o.value + s.axes[a].captured now o.source) / 2, source := o.source
        roll := o.roll, byClose := byClose }

/-- The midpoint of axis `a` that registration takes when its frame is closed at instant `now`, with its
source: none for an axis that the move disables (R148, R156). -/
def State.midpointTaken (s : State) (now : Nat) (a : Fin 4) : Option (Int × CaptureSource) :=
  if s.store.axisPlays a then
    s.axes[a].openCapture.map fun o =>
      ((o.value + s.axes[a].captured now o.source) / 2, o.source)
  else none

/-- Axis `a` is compared from pass frame `frame` on: decided at pass frame 0 (R157). -/
def State.axisCompared (s : State) (now frame : Nat) (a : Fin 4) : Bool :=
  match s.midpointTaken now a with
  | some (_, source) =>
    if frame = 0 then
      s.reg.comparable && (s.reg.reference.holds.bind fun d => d.sources[a]) == some source
    else s.reg.compared[a]
  | none => s.reg.compared[a]

/-- The deviation of axis `a` in pass frame `frame`, where a comparison is made (R157, R158). -/
def State.deviationOf (s : State) (now frame : Nat) (a : Fin 4) : Option Int :=
  match s.midpointTaken now a, s.reg.reference.holds with
  | some (m, _), some d =>
    if s.reg.comparable && s.axisCompared now frame a && decide (frame < d.framesRecorded) then
      ((s.reg.reference.frames.read frame).bind fun row => row[a]).map fun r => m - r
    else none
  | _, _ => none

/-- From `s` to `u` registration, RECORDING, has taken the midpoints of the frame that the channels closed
at instant `now` (R156 to R160): the cells and sources of the enabled axes, the axes compared, and the
comparisons with what they find and raise; at pass frame 8,192 or later nothing but TRUNCATED. The open
pass frame is `u`'s own. A disposition of GROSS_DEVIATION is WARN or HALT_RIG (R115). -/
def State.frameTaken (s : State) (now : Nat) (u : State) : Prop :=
  ∀ (frame : Nat) (d : PassDescriptor), s.reg.recording = true → s.reg.openFrame = some frame →
    s.reg.capture.holds = some d → s.cellsWf = true → s.sup.dispositions[15] ≠ .stopNow →
    (let tolerance := fun a : Fin 4 => (s.store.axisSetups[a].map AxisSetup.tolerance).getD 0
     let beyond := fun (factor : Nat) (a : Fin 4) =>
       (s.deviationOf now frame a).any fun v => decide (factor * tolerance a < v.natAbs)
     let found := (List.finRange 4).filterMap fun a =>
       (s.deviationOf now frame a).bind fun v =>
         if beyond 1 a then
           some (⟨frame, a, v, if beyond 4 a then .gross else .over⟩ : DeviationEntry)
         else none
     let room := 64 - s.reg.deviations.length
     let taken := frame < 8192 ∧ ∃ a : Fin 4, s.axes[a].openCapture ≠ none
     (¬ taken → u.reg = { s.reg with openFrame := u.reg.openFrame }) ∧
     (taken →
       u.reg = { s.reg with
         openFrame := u.reg.openFrame, buffer1 := u.reg.buffer1, buffer2 := u.reg.buffer2
         compared := Vector.ofFn (s.axisCompared now frame)
         comparisons := s.reg.comparisons +
           (List.finRange 4).countP fun a => (s.deviationOf now frame a).isSome
         maxima := Vector.ofFn fun a =>
           match s.deviationOf now frame a with
           | some v => if s.reg.maxima[a].value < v.natAbs then ⟨v.natAbs, some frame⟩
                       else s.reg.maxima[a]
           | none => s.reg.maxima[a]
         deviations := s.reg.deviations ++ found.take room
         overflow := s.reg.overflow + (found.length - room)
         grossSeen := s.reg.grossSeen || (List.finRange 4).any (beyond 4) } ∧
       u.reg.reference = s.reg.reference ∧
       u.reg.capture.holds = some { d with
         framesRecorded := frame + 1
         sources := Vector.ofFn fun a =>
           if frame = 0 then ((s.midpointTaken now a).map Prod.snd).or d.sources[a]
           else d.sources[a] } ∧
       ∀ n, u.reg.capture.frames.read n =
         if n = frame then some (Vector.ofFn fun a => (s.midpointTaken now a).map Prod.fst)
         else s.reg.capture.frames.read n) ∧
     (u.latchedCause .grossDeviation = true ↔ s.latchedCause .grossDeviation = true ∨
       taken ∧ ∃ a, beyond 4 a = true) ∧
     (∀ a : Fin 4, u.sup.axisSets[5].getLsbD a.val = true ↔
       s.sup.axisSets[5].getLsbD a.val = true ∨ taken ∧ beyond 4 a = true) ∧
     (8192 ≤ frame → (∃ a, s.midpointTaken now a ≠ none) → u.sup.notes[4] = true) ∧
     (frame < 8192 ∨ (∀ a : Fin 4, s.axes[a].openCapture = none) →
       u.sup.notes[4] = s.sup.notes[4]))

/-- From `s` to `u` a counted mark has handed its OPEN to the channels (R50, R147, R148): each closes the
frame it holds and opens the next. In a pass that goes on registration has taken the frame closed
(R155, R156); in STANDBY it has recorded nothing, unless the mark begins a pass. -/
def State.markOpens (s u : State) : Prop :=
  s.channelsOpen u ∧ s.framesClose false u.now ∧
  (s.engine.nodeState.inPass = true → u.engine.nodeState.inPass = true → s.frameTaken u.now u) ∧
  (s.engine.nodeState.inPass = false → s.engine.nodeState ≠ .pending → s.reg.recording = false →
    u.reg = s.reg ∧ u.sup.notes[4] = s.sup.notes[4] ∧
    u.latchedCause .grossDeviation = s.latchedCause .grossDeviation)

/-- Channel `a` once it has been handed a target at the state's own instant (R134). -/
def State.handed (a : Fin 4) (target : Int) (duration : Nat) (s : State) : AxisChannel :=
  (s.handTarget a target duration).axes[a]

/-- Channel `a` after a slew tick that gives it no new target (R101). -/
def State.rehanded (a : Fin 4) (s : State) : AxisChannel :=
  if s.axes[a].commandedAt s.now = s.engine.holdTargets[a] then s.axes[a]
  else s.handed a s.engine.holdTargets[a] 50000

/-- The axis stands on `target`, or has its remaining steps toward a limit input in force (R95, R126). -/
abbrev State.standsOn (a : Fin 4) (target : Int) (s : State) : Prop :=
  s.axes[a].commandedAt s.now = target ∨
    s.axes[a].commandedAt s.now < target ∧ s.sup.limitInForce a .max = true ∨
    target < s.axes[a].commandedAt s.now ∧ s.sup.limitInForce a .min = true

/-- From `s` to `u` supervision has taken what the evaluation `evs` raises (R73, R81, R83): a clamp with its
axis, and the arithmetic exceptions, the earlier axis first and within an axis OVERFLOW_EVAL first. Each
counts, and the first one is the record's where that was empty, but for its key index beyond the last
key. -/
def State.raisedBy (s : State) (evs : Fin 4 → Option AxisEval) (occasion : Occasion) (tick : Nat)
    (u : State) : Prop :=
  let found : List (ExceptionCode × Fin 4 × Option Nat) := (List.finRange 4).flatMap fun a =>
    match evs a with
    | some ev => (if ev.overflowEval then [(.overflowEval, a, ev.keyIndex)] else []) ++
        (if ev.overflowScale then [(.overflowScale, a, ev.keyIndex)] else [])
    | none => []
  (∀ a ev, evs a = some ev → ev.clamped = true →
    u.latchedCause .softLimitClamp = true ∧ u.sup.axisSets[4].getLsbD a.val = true) ∧
  ((∀ a ev, evs a = some ev → ev.clamped = false) →
    u.latchedCause .softLimitClamp = s.latchedCause .softLimitClamp ∧
      u.sup.axisSets[4] = s.sup.axisSets[4]) ∧
  (found = [] → u.latchedCause .arithOverflow = s.latchedCause .arithOverflow ∧
    u.sup.exceptionCount = s.sup.exceptionCount) ∧
  (found ≠ [] → u.latchedCause .arithOverflow = true ∧
    u.sup.exceptionCount = min 255 (s.sup.exceptionCount + found.length)) ∧
  (found = [] ∨ s.sup.exception ≠ none → u.sup.exception = s.sup.exception) ∧
  ∀ code a key later, s.sup.exception = none → found = (code, a, key) :: later →
    u.sup.exception.map (fun x => (x.code, x.track, x.occasion, x.tick)) =
      some (code, a, occasion, tick) ∧
    ∀ k, key = some k → u.sup.exception.map ExceptionRecord.keyIndex = some k

/-- From `s` to `u` the level channels have taken the level values at move time `t` (R170). -/
def State.levelsTaken (s : State) (t : Nat) (u : State) : Prop :=
  ∀ l : Fin 2,
    (∀ v, s.store.evalLevel t l = some v → u.levels[l].level = v ∧
      u.levels[l].source = .evaluated ∧ u.levels[l].activeDuty = s.levels[l].activeDuty ∧
      u.levels[l].supply = s.levels[l].supply) ∧
    (s.store.evalLevel t l = none → u.levels[l] = s.levels[l])

/-- The axis's following error exceeds the limit of the VALID move (R145, R146). -/
def State.followsBadly (a : Fin 4) (s : State) : Prop :=
  let x := s.axes[a]
  s.store.axisPlays a = true ∧ 0 < x.setup.ratio ∧ ∃ setup, s.store.axisSetups[a] = some setup ∧
    setup.followingLimit <
      (x.commandedAt s.now - (x.encoderAt s.now).toInt / (x.setup.ratio : Int)).natAbs

/-- The faults that the checks of R66 find in a load: `FaultOf st check list place f` when check number
`check` finds `f` in a list, counted from AXIS_0 to CUES, at a place: 0 is the list itself or its setup,
and i + 1 its entry of index i. -/
inductive FaultOf (st : MoveStore) : (check list place : Nat) → LoadFault → Prop where
  | order (o : LoadOrder) : st.loadOrder = some o →
      FaultOf st 1 0 0 { error := .loadOrder, list := o.list, index := o.index }
  | axisSetupAbsent (a : Fin 4) : st.header.map (fun h => h.enables[a.val]) = some true →
      st.axisSetups[a] = none →
      FaultOf st 2 a 0 { error := .missingSetup, list := .track (a.castLE (by decide)), index := none }
  | levelSetupAbsent (l : Fin 2) : st.header.map (fun h => h.enables[l.val + 4]) = some true →
      st.levelSetups[l] = none →
      FaultOf st 2 (4 + l) 0 { error := .missingSetup, list := .track (l.natAdd 4), index := none }
  | cueSetupAbsent : st.cueSetup = none →
      FaultOf st 2 6 0 { error := .missingSetup, list := .cues, index := none }
  | keysShort (t : Fin 6) (h : MoveHeader) : st.header = some h → st.nextIndex[t] < h.counts[t] →
      FaultOf st 3 t 0 { error := .countShort, list := .track t, index := some st.nextIndex[t] }
  | cuesShort (h : MoveHeader) : st.header = some h → st.nextCue < h.cueCount →
      FaultOf st 3 6 0 { error := .countShort, list := .cues, index := some st.nextCue }
  | firstKey (t : Fin 6) : st.header.map (fun h => h.enables[t]) = some true →
      (∀ k, (trackSlots st t).head? = some k → k.time ≠ 0) →
      FaultOf st 4 t 1 { error := .firstKeyNotZero, list := .track t, index := some 0 }
  | keyTime (t : Fin 6) (i : Nat) (k k' : Slot) : (trackSlots st t)[i]? = some k →
      (trackSlots st t)[i + 1]? = some k' → k'.time ≤ k.time →
      FaultOf st 5 t (i + 2) { error := .timeNotIncreasing, list := .track t, index := some (i + 1) }
  | cueTime (i : Nat) (c c' : CueEntry) : st.cueList[i]? = some c → st.cueList[i + 1]? = some c' →
      c'.time < c.time →
      FaultOf st 5 6 (i + 2) { error := .timeNotIncreasing, list := .cues, index := some (i + 1) }
  | limits (a : Fin 4) (x : AxisSetup) : st.header.map (fun h => h.enables[a.val]) = some true →
      st.axisSetups[a] = some x → x.softMax ≤ x.softMin →
      FaultOf st 6 a 0
        { error := .limitsInverted, list := .track (a.castLE (by decide)), index := none }
  | axisSetup (a : Fin 4) (x : AxisSetup) : st.header.map (fun h => h.enables[a.val]) = some true →
      st.axisSetups[a] = some x →
      (1 < x.scaleClass ∨ 8388607 < x.softMin.natAbs ∨ 8388607 < x.softMax.natAbs ∨
        x.slewSpeed < 1 ∨ 128000 < x.slewSpeed ∨ x.slewAccel < 1 ∨ 65535 < x.slewAccel ∨
        x.followingLimit < 1 ∨ 65535 < x.followingLimit ∨ x.tolerance < 1 ∨ 65535 < x.tolerance) →
      FaultOf st 7 a 0 { error := .valueRange, list := .track (a.castLE (by decide)), index := none }
  | levelSetup (l : Fin 2) (x : LevelSetup) :
      st.header.map (fun h => h.enables[l.val + 4]) = some true → st.levelSetups[l] = some x →
      (1 < x.compensation ∨ x.nominal < 1 ∨ 1023 < x.nominal) →
      FaultOf st 7 (4 + l) 0 { error := .valueRange, list := .track (l.natAdd 4), index := none }
  | axisKey (t : Fin 6) (i : Nat) (k : AxisKey) : (trackSlots st t)[i]? = some (.axis k) →
      2 < k.shape →
      FaultOf st 7 t (i + 1) { error := .valueRange, list := .track t, index := some i }
  | levelKey (t : Fin 6) (i : Nat) (k : LevelKey) : (trackSlots st t)[i]? = some (.level k) →
      (1023 < k.value ∨ 1 < k.shape) →
      FaultOf st 7 t (i + 1) { error := .valueRange, list := .track t, index := some i }
  | cue (i : Nat) (c : CueEntry) : st.cueList[i]? = some c →
      (1023 < c.phase ∨ c.lines = 0 ∨ 2 < c.action ∨ c.action = 2 ∧ c.pulse = 0) →
      FaultOf st 7 6 (i + 1) { error := .valueRange, list := .cues, index := some i }
  | cueEnd (i : Nat) (c : CueEntry) : st.cueList[i]? = some c → st.moveLength * 65536 < c.time →
      FaultOf st 8 6 (i + 1) { error := .cueBeyondEnd, list := .cues, index := some i }

/-- `f` is the first fault of the load in the order of R66: by check, within it by list, and within
that by place. -/
def MoveStore.firstFault (st : MoveStore) (f : LoadFault) : Prop :=
  ∃ check list place, FaultOf st check list place f ∧
    ∀ check' list' place' f', FaultOf st check' list' place' f' →
      check < check' ∨ check = check' ∧ (list < list' ∨ list = list' ∧ place ≤ place')

/-- The default dispositions of R115 stand. -/
abbrev State.defaults (s : State) : Prop := s.sup.dispositions = defaultDispositions

/-- A reset of the whole part: POWER_ON_RESET or PIN_RESET. -/
def wholeReset : Instr → Bool
  | .powerOnReset .. | .pinReset .. => true
  | _ => false

end Sys2Proof.Machine
end

