-- ==== Sys2Proof/Certificates/Slice0/Obligations.lean ====
section
/-! DEFINITION. The statements for the provers, from the spec's numbered rules. Each docstring names
the rules it formalises, or the log entry where it states a choice of the model. -/

section
open Sys2Proof Sys2Proof.Machine

/-! ## The line's coding (chapter 1) -/

/-- R2, R3, R8: a receiver that reads the bits of a telegram with at most 24 payload bytes finds the
telegram itself, or an undefined class where the class defines no such kind. -/
def Obligations.LineCodingRoundTrip : Prop :=
  ∀ g : Telegram, g.payload.length ≤ 24 →
    judgeBits g.lineBits = if definedKind g.cls g.kind then .wellFormed g else .undefinedClass

/-- R3, R9: stuffing limits any run of equal bits to 6. -/
def Obligations.StuffedRunsAtMostSix : Prop :=
  ∀ (bits before after : List Bool) (level : Bool),
    stuff true 0 bits ≠ before ++ List.replicate 7 level ++ after

/-! ## Steps -/

/-- A step runs the command at the front of the queue on the queue's rest. -/
def Obligations.StepRunsFrontCommand : Prop :=
  ∀ (c : Instr) (rest : List Instr) (s : State), s.pending = rest →
    step { s with pending := c :: rest } = exec c s

/-- The model's idle step (assumption 5): with no command waiting the earliest own event that is due
comes, and where none is due one base clock passes. -/
def Obligations.IdleTakesEarliestDue : Prop :=
  ∀ s : State, s.pending = [] →
    (∃ c d, step s = exec c s ∧ (some d, c) ∈ s.ownEvents ∧ d ≤ s.now ∧
      ∀ d' c', (some d', c') ∈ s.ownEvents → d ≤ d') ∨
    (step s = .next { s with now := s.now + 1 } ∧
      ∀ d' c', (some d', c') ∈ s.ownEvents → s.now < d')

/-- Every command is answered with a next state, the waiting commands and the serial kept. -/
def Obligations.EveryCommandCompletes : Prop :=
  ∀ (c : Instr) (s : State), ∃ t, exec c s = .next t ∧ t.pending = s.pending ∧ t.serial = s.serial

/-- Base time never runs back but at a reset of the whole part (assumption 2). -/
def Obligations.BaseTimeNeverRunsBack : Prop :=
  ∀ (c : Instr) (s t : State), wholeReset c = false → exec c s = .next t → s.now ≤ t.now

/-- R12, R16, 2.1, 4.3, 9.1, R159, R163, R188: every step keeps the capacities of the queues, the
roster, the deviation list and the history, the width of the counters, and the form of the cells. -/
def Obligations.BoundsKeptByEveryStep : Prop :=
  ∀ s t : State, s.bounded = true → step s = .next t → t.bounded = true

/-- R18, R19, R34, R51, R90, R118, R132, R152, R169, R175, R188: what either reset leaves, block by
block, with every bound of `BoundsKeptByEveryStep` met. The model's choices among it are a channel's
values from before its last edge and encoder change, 0 (assumption 9), base time 0 and what a reset
keeps, such as the serial (assumption 28), and that the levels of the encoder inputs are kept
(assumption 46). -/
def Obligations.ResetsStartThePart : Prop :=
  State.reset.bounded = true ∧
  ∀ (rate : LineRate) (participant : Bool) (s : State) (c : Instr) (cause : ResetCause),
    c = .powerOnReset rate participant ∧ cause = .powerOn ∨
      c = .pinReset rate participant ∧ cause = .pin →
    ∃ t, exec c s = .next t ∧ t.bounded = true ∧ t.now = 0 ∧ t.participant = participant ∧
      t.serial = s.serial ∧
      t.line = { rate, state := .waitQuiet, outputDominant := false, quietCount := 0,
                 dominantRun := 0, txQueue := [], requestQueue := [], clashRun := 0,
                 txOff := false, lineStuck := false, flushDue := false, reopenDue := false } ∧
      t.roster.station = none ∧ t.engine.nodeState = .settling ∧
      t.roster.phase = .settling ∧ t.roster.ownPosition = some 0 ∧
      t.roster.table.map (fun e => (e.serial, e.rank, e.participant, e.lastState, e.watched)) =
        [(s.serial, 1, participant, none, false)] ∧
      t.roster.announceSeq = s.serial ∧ t.roster.announceCount = 0 ∧ t.roster.resume = .idle ∧
      t.roster.beyondCount = 0 ∧ t.roster.mismatch = false ∧ t.roster.quietStart = t.now ∧
      t.clock.state = .free ∧ t.clock.period = none ∧ t.clock.timingBase = none ∧
      t.clock.roll = 0 ∧ t.store.phase = .empty ∧ t.engine.params = none ∧
      t.engine.passNumber = 0 ∧ t.engine.path = { onPath := false, tPark := 0, scale := 16384 } ∧
      t.engine.halt.rampStart = none ∧
      (∀ a : Fin 4, t.axes[a] =
        { commanded := 0, commandedBefore := 0, encoder := 0, encoderBefore := 0
          encoderChanged := none, increasing := true, dirHigh := true, stepHigh := false
          trailing := none, lastDirChange := none, lastEdge := none, plan := none
          setup := { pulseWidth := 250, dirSetup := 250, ratio := 0, invert := false }
          openCapture := none, deficitTicks := 0, encoderErrors := 0
          encoderInputs := s.axes[a].encoderInputs }) ∧
      t.reg.capture.holds = none ∧ t.reg.reference.holds = none ∧ t.reg.history = [] ∧
      (∀ l : Fin 2, t.levels[l].level = 0 ∧ t.levels[l].activeDuty = 0) ∧
      (∀ i : Fin 8, t.cues[i].active = false ∧ t.cues[i].high = false) ∧
      t.sup.resetCause = cause ∧ (∀ i : Fin 18, t.sup.latched[i] = false) ∧
      (∀ k : Counter, t.sup.counter k = 0) ∧ t.sup.exception = none

/-! ## Arithmetic (chapters 5 to 9) -/

/-- R76: the rounded quotient in both modes. R54 to R56, R73 to R75, R77 to R82, R86, R87: what an
evaluation makes of a stored move with it: the segment of a move time and its parameter, the shapes
HOLD, LINEAR and EASE, both saturations, the scale, the clamp and the step target of an enabled axis,
the value of an enabled level channel, no result for a disabled one, and the crossing entries of a tick.
-/
def Obligations.RoundedQuotient : Prop :=
  (∀ (a : Int) (b : Nat), b = 65536 ∨ b = 16384 ∨ b = 256 →
    (let q := roundQuot .nearest a b
     2 * (a - q * b).natAbs ≤ b ∧ (2 * (a - q * b).natAbs = b → a.natAbs < (q * b).natAbs)) ∧
    (let q := roundQuot .chop a b
     (0 ≤ a → q * b ≤ a ∧ a < (q + 1) * b) ∧ (a < 0 → (q - 1) * b < a ∧ a ≤ q * b))) ∧
  (∀ (st : MoveStore) (h : MoveHeader) (t : Nat), st.phase = .valid → st.header = some h →
    (let rnd := roundQuot h.rounding
     let sat := fun v : Int => max (-2147483648) (min 2147483647 v)
     (∀ (a : Fin 4) (x : AxisSetup) (scale : Nat), h.enables[a.val] = true →
       st.axisSetups[a] = some x → x.softMin ≤ x.softMax →
       (axisKeysOf st a).head?.map AxisKey.time = some 0 →
       ((axisKeysOf st a).map AxisKey.time).Pairwise (· < ·) →
       (let gives := fun (raw : Int) (key : Option Nat) =>
          (let p := sat raw
           let scaled := if x.scaleClass = 0 then x.origin + rnd ((p - x.origin) * scale) 16384 else p
           let inside := max (x.softMin * 256) (min (x.softMax * 256) (sat scaled))
           st.evalAxis t scale a = some
             { target := rnd inside 256, overflowEval := decide (p ≠ raw)
               overflowScale := decide (sat scaled ≠ scaled)
               clamped := decide (inside ≠ sat scaled), keyIndex := key })
        (∀ (i : Nat) (k0 k1 : AxisKey), (axisKeysOf st a)[i]? = some k0 →
          (axisKeysOf st a)[i + 1]? = some k1 → k0.time ≤ t / 65536 → t / 65536 < k1.time →
          (let span := k1.time - k0.time
           let u := (t - k0.time * 65536) / span
           let u2 := u * u / 65536
           let u3 := u2 * u / 65536
           let rise := k1.value - k0.value
           let slopes := k0.tangent.getD 0 * (u3 - 2 * u2 + u : Int) +
             k1.tangent.getD 0 * (u3 - u2 : Int)
           (k0.shape = 0 → gives k0.value (some i)) ∧
           (k0.shape = 1 → gives (k0.value + rnd (rise * u) 65536) (some i)) ∧
           (k0.shape = 2 → gives
             (k0.value + rnd (rise * (3 * u2 - 2 * u3 : Int) + slopes * span) 65536) (some i)))) ∧
        (∀ k, (axisKeysOf st a).getLast? = some k → k.time ≤ t / 65536 → gives k.value none))) ∧
     (∀ (a : Fin 4) (scale : Nat), h.enables[a.val] = false → st.evalAxis t scale a = none) ∧
     (∀ l : Fin 2, h.enables[l.val + 4] = true →
       (levelKeysOf st l).head?.map LevelKey.time = some 0 →
       ((levelKeysOf st l).map LevelKey.time).Pairwise (· < ·) →
       (∀ (i : Nat) (k0 k1 : LevelKey), (levelKeysOf st l)[i]? = some k0 →
         (levelKeysOf st l)[i + 1]? = some k1 → k0.time ≤ t / 65536 → t / 65536 < k1.time →
         (let u := (t - k0.time * 65536) / (k1.time - k0.time)
          (k0.shape = 0 → st.evalLevel t l = some k0.value) ∧
          (k0.shape = 1 → ∃ v : Nat, st.evalLevel t l = some v ∧
            (v : Int) = k0.value + rnd (((k1.value : Int) - k0.value) * u) 65536 ∧
            min k0.value k1.value ≤ v ∧ v ≤ max k0.value k1.value))) ∧
       (∀ k, (levelKeysOf st l).getLast? = some k → k.time ≤ t / 65536 →
         st.evalLevel t l = some k.value)) ∧
     (∀ l : Fin 2, h.enables[l.val + 4] = false → st.evalLevel t l = none) ∧
     (∀ prev : Option Nat, st.crossings prev t = st.cueList.filter fun c =>
       (let time := c.frame * 65536 + c.phase * 64
        decide (time ≤ t ∧ ∀ p ∈ prev, p < time))))) ∧
  (∀ (st : MoveStore) (t scale : Nat), st.phase ≠ .valid →
    (∀ a : Fin 4, st.evalAxis t scale a = none) ∧ ∀ l : Fin 2, st.evalLevel t l = none)

/-- R94: the slew rule for one quantity, with the floor of the exact square root; the quantity never
passes its destination, and reaches it after some number of slew ticks. R126: one tick of the
decelerating form, which never gains velocity and comes to rest. -/
def Obligations.SlewRule : Prop :=
  ∀ q : Quantity,
    (let isRoot := fun root : Nat => root * root ≤ 2 * q.accel * q.distance ∧
       2 * q.accel * q.distance < (root + 1) * (root + 1)
     let moved := fun v : Nat =>
       (let n := min v q.distance
        ({ q with
          value := if q.value < q.dest then q.value + n else q.value - n
          velocity := if n = q.distance then 0 else v } : Quantity))
     (q.distance = 0 → q.advance = q) ∧
     (0 < q.distance → ∃ root, isRoot root ∧
       (let v := min (q.velocity + q.accel) (min q.speedLimit root)
        q.advance = moved v ∧ q.advance.distance = q.distance - min v q.distance)) ∧
     (1 ≤ q.speedLimit → 1 ≤ q.accel → ∃ k, (Quantity.advance^[k] q).distance = 0) ∧
     (q.distance = 0 ∨ q.velocity = 0 → q.brake = q) ∧
     (0 < q.distance → 0 < q.velocity → ∃ root, isRoot root ∧
       (let v := min (max 0 (q.velocity - q.accel)) root
        q.brake = moved v ∧ q.brake.distance = q.distance - min v q.distance)) ∧
     (1 ≤ q.accel → q.brake.velocity ≤ q.velocity ∧ q.brake.distance ≤ q.distance ∧
       ∃ k, (Quantity.brake^[k] q).velocity = 0 ∨ (Quantity.brake^[k] q).distance = 0))

/-- R137, R139: the plan of a guarded target: none just when the target is the commanded position. A
full plan's intervals fill the available time exactly; a deficit plan holds the steps that fit at the
least spacing. R133, R134 to R136, R140 to R142: what a channel that is handed a target is left with. The
target is guarded, the plan replaces the one in progress, the pulses that inputs in force forbid are
removed, and no planned pulse leaves the guard range; a disabled channel is left as it was. -/
def Obligations.PlanFillsTheTick : Prop :=
  (∀ (now : Nat) (x : AxisChannel) (target : Int) (duration : Nat),
    (formPlan now x target duration = none ↔ target = x.commanded.toInt) ∧
    ∀ (p : Plan) (deficit : Bool), formPlan now x target duration = some (p, deficit) →
      (let n := (target - x.commanded.toInt).natAbs
       let turns := p.increasing != x.increasing
       let wait := if turns then x.setup.dirSetup else 0
       let qmin := max 100 (2 * x.setup.pulseWidth)
       (p.increasing = true ↔ x.commanded.toInt < target) ∧ p.first = now + wait ∧ p.emitted = 0 ∧
       p.pulseWidth = x.setup.pulseWidth ∧ p.dirSetup = x.setup.dirSetup ∧
       (deficit = false → p.total = n ∧ p.interval * n + p.extra = duration - wait ∧ p.extra < n ∧
         qmin ≤ p.interval) ∧
       (deficit = true → (duration - wait) / n < qmin ∧ p.interval = qmin ∧ p.extra = 0 ∧
         p.total = (duration - wait) / qmin))) ∧
  (∀ (a : Fin 4) (target : Int) (duration : Nat) (s : State), s.defaults →
    (let x := s.axes[a]
     let c := x.commanded.toInt
     let enabled := s.store.header.map (fun h => h.enables[a.val])
     let range := s.store.softRange a
     let lo := min range.1 c
     let hi := max range.2 c
     let formed := formPlan s.now x (max lo (min hi target)) duration
     let u := s.handTarget a target duration
     (∀ setup, s.store.phase = .valid → enabled = some true → s.store.axisSetups[a] = some setup →
       range = (setup.softMin, setup.softMax)) ∧
     (s.store.phase ≠ .valid ∨ enabled ≠ some true → range = (-8388607, 8388607)) ∧
     (∀ b, b ≠ a → u.axes[b] = s.axes[b]) ∧
     (s.store.phase ≠ .empty → enabled = some false → u.axes = s.axes) ∧
     (s.store.phase = .empty ∨ enabled ≠ some false →
       (formed = none → u.axes[a] = { x with plan := none }) ∧
       (∀ (p : Plan) (deficit : Bool), formed = some (p, deficit) →
         (let forbidden := s.sup.driveInForce a = true ∨
            p.increasing = true ∧ s.sup.limitInForce a .max = true ∨
            p.increasing = false ∧ s.sup.limitInForce a .min = true
          u.axes[a].increasing = p.increasing ∧ u.axes[a].commanded = x.commanded ∧
          (forbidden ∨ p.total = 0 → u.axes[a].plan = none) ∧
          (¬ forbidden → p.total ≠ 0 → u.axes[a].plan = some p) ∧
          (x.stepHigh = false → u.axes[a].dirHigh = (p.increasing != x.setup.invert)) ∧
          (deficit = false → u.axes[a].deficitTicks = x.deficitTicks) ∧
          (deficit = true → u.axes[a].deficitTicks = min 255 (x.deficitTicks + 1) ∧
            u.latchedCause .stepDeficit = true) ∧
          ∀ k : Nat, k ≤ p.total → (let at' := if p.increasing then c + k else c - k
            lo ≤ at' ∧ at' ≤ hi)))) ∧
     (x.setup.ratio = 0 → (∀ p, formed ≠ some (p, true)) → u = { s with axes := u.axes })))

/-- R158 to R160: one comparison of a recorded midpoint with the reference. R161 to R163: what a pass's
end makes of registration: the verdict, the summary completed, the buffer's ending, and the role swap
of an ENDED pass with frames recorded when there is no reference. -/
def Obligations.MidpointComparison : Prop :=
  (∀ (r : Registration) (tolerance frame : Nat) (a : Fin 4) (m : Midpoint) (ref : Int),
    r.referenceAt frame a = some ref → r.comparable = true → r.compared[a] = true →
    (let d := m.value - ref
     let out := (r.compare tolerance frame a m).1
     out.comparisons = r.comparisons + 1 ∧
     (r.compare tolerance frame a m).2 = decide (4 * tolerance < d.natAbs) ∧
     out.grossSeen = (r.grossSeen || decide (4 * tolerance < d.natAbs)) ∧
     out.maxima[a] = (if r.maxima[a].value < d.natAbs then ⟨d.natAbs, some frame⟩ else r.maxima[a]) ∧
     out.deviations.length + out.overflow =
       r.deviations.length + r.overflow + (if tolerance < d.natAbs then 1 else 0) ∧
     (tolerance < d.natAbs → r.deviations.length < 64 → out.deviations = r.deviations ++
       [⟨frame, a, d, if 4 * tolerance < d.natAbs then .gross else .over⟩]) ∧
     (64 ≤ r.deviations.length ∨ d.natAbs ≤ tolerance → out.deviations = r.deviations))) ∧
  (∀ (r : Registration) (ending : PassEnding) (cause : Option HaltCause) (late : Bool)
    (older : List Summary) (x : Summary), r.history = older ++ [x] →
    (let u := r.passEnded ending cause late
     let frames := (r.capture.holds.map PassDescriptor.framesRecorded).getD 0
     let swaps := ending = .ended ∧ r.reference.holds = none ∧ 0 < frames
     let ended := { r.capture with
       holds := r.capture.holds.map fun d => { d with ending := ending } }
     let verdict : Verdict :=
       if ending ≠ .ended then .incomplete
       else if r.comparable = false ∨ r.comparisons = 0 then .unchecked
       else if r.grossSeen = true then .failed
       else if r.deviations ≠ [] ∨ 0 < r.overflow then .marginal
       else .registered
     u.recording = false ∧ u.deviations = r.deviations ∧ u.overflow = r.overflow ∧
     u.maxima = r.maxima ∧ u.listPass = r.listPass ∧
     u.history = older ++ [{ x with
       framesRun := r.openFrame.getD 0 + 1, framesRecorded := frames, ending := ending
       cause := cause, late := late, verdict := verdict, maxima := r.maxima
       entryCount := r.deviations.length, overflow := r.overflow
       becameReference := if swaps then true else x.becameReference }] ∧
     (swaps → u.reference = ended ∧ u.capture.holds = none) ∧
     (¬ swaps → u.reference = r.reference ∧ u.capture = ended)))

/-! ## The line interface (chapter 1) -/

/-- R4, R12: every step keeps the transmit queue in order of arbitration value, with one entry in
transmission just while the interface is TRANSMITTING, and none at any other time; and in WAIT_QUIET
the quiet count stays below the 11 that end it. -/
def Obligations.TransmitQueueKeptByEveryStep : Prop :=
  ∀ s t : State, step s = .next t →
    (s.queueOrdered → t.queueOrdered) ∧ (s.oneAttempt → t.oneAttempt) ∧
    ((s.line.state = .waitQuiet → s.line.quietCount < 11) →
      t.line.state = .waitQuiet → t.line.quietCount < 11)

/-- R12, R13, R15, R20, R27: what the transmit queue does with an offered telegram. An EXCLUDED node's
is not taken; a REPORT replaces the one that waits; with room it is placed in order; at a full queue a
HALT is placed and the last entry not in transmission leaves, and any other is dropped and counted, its
block taking the outcome. Which REPORT an offered one replaces where two wait, the first in order, is
the model's choice (assumption 55). -/
def Obligations.OfferedTelegramIsPlaced : Prop :=
  ∀ (e : TxEntry) (s : State), s.queueOrdered →
    (let waits := s.line.txQueue.any fun x => x.owner == .report && !x.sending
     let placed := s.line.txQueue.filter (fun x => decide (x.value ≤ e.value)) ++
       e :: s.line.txQueue.filter fun x => decide (e.value < x.value)
     let counted := { s.sup with counters := s.sup.counters.set 6 (min 255 (s.sup.counters[6] + 1)) }
     let silent := fun owner : TxOwner => owner ∉ [TxOwner.halt true, .announce,
       .stationResetReply true, .rosterReopenReply]
     let seq := 1103515245#32 * s.roster.announceSeq + 12345#32
     (s.engine.nodeState = .excluded → s.offer e = s) ∧
     (s.engine.nodeState ≠ .excluded →
       (e.owner = .report → waits = true → ∃ before x behind,
         s.line.txQueue = before ++ x :: behind ∧ x.owner = .report ∧ x.sending = false ∧
         s.offer e = { s with line := { s.line with
           txQueue := before ++ { x with payload := e.payload } :: behind } }) ∧
       (e.owner ≠ .report ∨ waits = false →
         (s.line.txQueue.length < 8 →
           s.offer e = { s with line := { s.line with txQueue := placed } }) ∧
         (8 ≤ s.line.txQueue.length → e.cls = 0 → e.sending = false → ∃ before gone behind,
           placed = before ++ gone :: behind ∧ gone.sending = false ∧
           (∀ x ∈ behind, x.sending = true) ∧
           (s.offer e).line.txQueue = before ++ behind ∧ (s.offer e).sup = counted ∧
           (silent gone.owner → s.offer e = { s with
             sup := counted, line := { s.line with txQueue := before ++ behind } }) ∧
           (gone.owner = .halt true → (s.offer e).engine.halt.ownHalt = none)) ∧
         (8 ≤ s.line.txQueue.length → e.cls ≠ 0 →
           (s.offer e).line.txQueue = s.line.txQueue ∧ (s.offer e).sup = counted ∧
           (silent e.owner → s.offer e = { s with sup := counted }) ∧
           (e.owner = .announce → s.roster.phase = .settling → s.roster.schedule = .offered →
             s.offer e = { s with sup := counted, roster := { s.roster with
               announceSeq := seq
               schedule := .delay (s.now + 50000 * (2 + seq.toNat / 65536 % 39)) } }) ∧
           (e.owner = .stationResetReply true → s.offer e = { s with
             sup := counted, line := { s.line with flushDue := true } }) ∧
           (e.owner = .rosterReopenReply → s.offer e = { s with
             sup := counted, line := { s.line with reopenDue := true } })))))

/-- R4, R9, R20: QUIET_COUNT_REACHED, INTERMISSION_END and START_BIT in the states they come in, with the
quiet count and the dominant run that their bits leave. -/
def Obligations.LineStatesFollowTheLine : Prop :=
  ∀ (t : Nat) (s : State),
    (let awaited := s.roster.phase = .settling ∧ s.roster.schedule = .awaitIdle
     let seq := 1103515245#32 * s.roster.announceSeq + 12345#32
     let due := max s.now t + 50000 * (2 + seq.toNat / 65536 % 39)
     let drawn := if awaited then { s.roster with announceSeq := seq, schedule := .delay due }
                  else s.roster
     (s.line.state = .waitQuiet → s.line.quietCount < 11 →
       ∃ u, exec (.quietCountReached t) s = .next u ∧
       u.now = max s.now t ∧ u.roster = drawn ∧
       u.line = { s.line with state := .idle, quietCount := 11, dominantRun := 0,
                              lineStuck := false, txQueue := u.line.txQueue } ∧
       u = { s with now := u.now, line := u.line, roster := u.roster, clock := u.clock,
                    engine := u.engine, cues := u.cues, sup := u.sup }) ∧
     (s.line.state = .intermission → exec (.intermissionEnd t) s = .next
       { s with now := max s.now t, roster := drawn
                line := { s.line with state := .idle, dominantRun := 0 } }) ∧
     (s.line.state = .idle → exec (.startBit t) s = .next
       { s with now := max s.now t, line := { s.line with
           state := .receiving, dominantRun := s.line.dominantRun + 1 } }))

/-- R9: LINE_STUCK in every state: the 32nd dominant bit of a run, WAIT_QUIET with a quiet count of 0,
LINE_STUCK live, no telegram in transmission, the waiting entries kept, no form error counted, and
LINE_FAULT latched when it becomes live in a pass. That an entry in transmission goes back to waiting,
or leaves where it is marked, is the model's choice (assumption 36). -/
def Obligations.StuckLineHoldsTheQueue : Prop :=
  ∀ (t : Nat) (s : State), s.oneAttempt → ∃ u, exec (.lineStuck t) s = .next u ∧
    u.line.state = .waitQuiet ∧ u.line.quietCount = 0 ∧
    u.line.dominantRun = max 32 s.line.dominantRun ∧ u.line.outputDominant = false ∧
    u.line.lineStuck = true ∧ (∀ e ∈ u.line.txQueue, e.sending = false) ∧
    (s.line.lineStuck = true ∨
        s.engine.nodeState ∉ [NodeState.armed, .pending, .running, .halting] →
      u.line.txQueue =
        (s.line.txQueue.filter fun e => !(e.sending && (e.cancelled || e.flushing))).map
          fun e => { e with sending := false }) ∧
    (s.line.txQueue.length < 7 → ∀ e ∈ s.line.txQueue, e.sending = false → e.owner ≠ .report →
      e ∈ u.line.txQueue) ∧
    u.sup.counter .formErrors = s.sup.counter .formErrors ∧
    u.sup.counter .checkErrors = s.sup.counter .checkErrors ∧
    (s.engine.nodeState.inPass = true → s.line.lineStuck = false →
      u.latchedCause .lineFault = true) ∧
    (s.line.lineStuck = true → u.sup = s.sup ∧ u.axes = s.axes ∧ u.clock = s.clock) ∧
    u.store.pool = s.store.pool ∧ u.levels = s.levels

/-- R1, R4, R9, R12: an attempt begins with the first entry that is not marked for cancellation, its
dominant start bit set and read back, and none begins while TX_OFF or LINE_STUCK is live or the node
is EXCLUDED. -/
def Obligations.AttemptTakesTheHead : Prop :=
  ∀ (t : Nat) (s : State) (before behind : List TxEntry) (e : TxEntry),
    s.line.state = .idle → s.line.txQueue = before ++ e :: behind →
    (∀ x ∈ before, x.cancelled = true) → e.cancelled = false →
    (s.line.txOff = false → s.line.lineStuck = false → s.engine.nodeState ≠ .excluded →
      exec (.transmitStart t) s = .next { s with now := max s.now t, line := { s.line with
        state := .transmitting, outputDominant := true, dominantRun := s.line.dominantRun + 1
        txQueue := before ++ { e with sending := true } :: behind } }) ∧
    (s.line.txOff = true ∨ s.line.lineStuck = true ∨ s.engine.nodeState = .excluded →
      exec (.transmitStart t) s = .next { s with now := max s.now t })

/-- R5, R14, R15: a lost arbitration puts the entry back to waiting at its place, uncounted; one that is
marked for cancellation, or that an emptying fell on, leaves the queue at that bit. That a REPORT waits
again also beside one taken meanwhile, where R13 has two never both wait, is the model's choice
(assumption 55). -/
def Obligations.LostArbitrationWaitsAgain : Prop :=
  ∀ (t : Nat) (s : State) (before behind : List TxEntry) (e : TxEntry),
    s.line.state = .transmitting → s.attempt before e behind →
    (e.cancelled = false → e.flushing = false →
      exec (.arbitrationLost t) s = .next { s with now := max s.now t, line := { s.line with
        state := .receiving, outputDominant := false, dominantRun := s.line.dominantRun + 1
        txQueue := before ++ { e with sending := false } :: behind } }) ∧
    (e.cancelled = true ∨ e.flushing = true → ∃ u, exec (.arbitrationLost t) s = .next u ∧
      u.line.state = .receiving ∧ u.line.outputDominant = false ∧ u.line.txQueue = before ++ behind ∧ u.sup = s.sup ∧
      u.axes = s.axes ∧ u.store = s.store ∧ u.clock = s.clock ∧ u.reg = s.reg)

/-- R6, R7, R15, R20, R27, R119, R191: a clash takes the telegram out of the queue, releases the output
and is counted twice; the 16th in a row makes TX_OFF live, which latches LINE_FAULT in a pass and, while
SETTLING, ends the node's announces. The block that queued the telegram has its outcome: an ANNOUNCE
draws a new delay, and the leaving of the reply to a taken STATION_RESET or ROSTER_REOPEN makes the
emptying or the reopening due. -/
def Obligations.ClashDropsAndCounts : Prop :=
  ∀ (t : Nat) (s : State) (before behind : List TxEntry) (e : TxEntry),
    s.line.state = .transmitting → s.attempt before e behind →
    ∃ u, exec (.clash t) s = .next u ∧ u.line.state = .receiving ∧
      u.line.outputDominant = false ∧
      u.sup.counter .clashes = min 255 (s.sup.counter .clashes + 1) ∧
      u.line.clashRun = min 16 (s.line.clashRun + 1) ∧
      u.line.txOff = (s.line.txOff || decide (16 ≤ s.line.clashRun + 1)) ∧
      (s.line.clashRun + 1 < 16 ∨ s.line.txOff = true → State.outcomeTaken e.owner false { s with
        now := max s.now t
        line := { s.line with
          state := .receiving, outputDominant := false, txQueue := before ++ behind
          clashRun := min 16 (s.line.clashRun + 1) }
        sup := { s.sup with
          counters := s.sup.counters.set 5 (min 255 (s.sup.counters[5] + 1)) } } u) ∧
      (e.owner = .stationResetReply true → u.line.flushDue = true) ∧
      (e.owner = .rosterReopenReply → u.line.reopenDue = true) ∧
      (e.owner = .halt true → s.engine.nodeState.inPass = false → u.engine.halt.ownHalt = none) ∧
      (16 ≤ s.line.clashRun + 1 → s.line.txOff = false → s.engine.nodeState.inPass = true →
        u.latchedCause .lineFault = true) ∧
      (16 ≤ s.line.clashRun + 1 → s.line.txOff = false → s.roster.phase = .settling →
        u.roster.schedule = .done)

/-- R7, R12, R15, R20, R21, R27, R119, R191: a completed telegram leaves the queue, the clash run count
becomes 0 and the interface enters INTERMISSION. The block that queued it has its outcome SENT: the own
HALT is no longer on its way, an ANNOUNCE counts and restarts the quiet timer and, below three, draws
the next delay, the reply to a taken STATION_RESET or ROSTER_REOPEN makes the emptying or the reopening
due, and any other telegram's leaving changes nothing else. -/
def Obligations.CompletedTelegramLeaves : Prop :=
  ∀ (t : Nat) (s : State) (before behind : List TxEntry) (e : TxEntry),
    s.line.state = .transmitting → s.attempt before e behind →
    ∃ u, exec (.transmitComplete t) s = .next u ∧ u.now = max s.now t ∧
      u.line.state = .intermission ∧ u.line.clashRun = 0 ∧ u.line.txQueue = before ++ behind ∧
      State.outcomeTaken e.owner true { s with now := max s.now t, line := { s.line with
        state := .intermission, outputDominant := false, dominantRun := 0, clashRun := 0
        txQueue := before ++ behind } } u

/-- R4, R8, R11, R193: what each finding counts and where the interface goes. A received REPLY is not
acted on; a line-level telegram of another length than its table's, and a LOAD telegram without a
target, counts as a form error and does nothing else. That a form error in RECEIVING enters WAIT_QUIET
with a quiet count of 0, where R4 gives that count for INTERMISSION only, is the model's choice
(assumption 49). -/
def Obligations.ReceiveFindings : Prop :=
  ∀ (t : Nat) (s : State),
    (let counting := fun (k : Fin 11) (v : State) => ({ v with sup := { v.sup with
       counters := v.sup.counters.set k (min 255 (v.sup.counters[k] + 1)) } } : State)
     let read := s.received t
     (s.line.state = .receiving → exec (.formError t) s = .next (counting 2 { s with
       now := max s.now t, line := { s.line with state := .waitQuiet, quietCount := 0 } })) ∧
     (s.line.state = .intermission → exec (.formError t) s = .next (counting 2 { s with
       now := max s.now t, line := { s.line with
         state := .waitQuiet, quietCount := 0, dominantRun := s.line.dominantRun + 1 } })) ∧
     (s.line.state = .receiving →
       exec (.checkError t) s = .next (counting 3 read) ∧
       exec (.undefinedClass t) s = .next (counting 4 read) ∧
       (∀ station kind payload, exec (.reply t station kind payload) s = .next read) ∧
       (∀ telegram ∈ [(Instr.halt, 8), (.genericHalt, 8), (.start, 16), (.decline, 4), (.report, 24),
           (.announce, 5), (.digest, 3)],
         ∀ (station : BitVec 5) (payload : List Byte), payload.length ≠ telegram.2 →
           exec (telegram.1 t station payload) s = .next (counting 2 read)) ∧
       (∀ chunk ∈ [Instr.axisSetup, .levelSetup, .cueSetup, .keys, .levelKeys, .cues],
         ∀ station : BitVec 5, exec (chunk t station []) s = .next (counting 2 read))))

/-- R11, R16: a REQUEST is taken by its target, joins the queue's tail or is an overrun; one without
a target is a form error, and one for another station is ignored. -/
def Obligations.RequestJoinsTheQueue : Prop :=
  ∀ (t : Nat) (station : BitVec 5) (kind : BitVec 4) (target : Byte) (body : List Byte) (s : State),
    s.line.state = .receiving →
    (let read : State := { s with now := max s.now t
                                  line := { s.line with
                                    state := .intermission, dominantRun := 0 } }
     let mine := s.engine.nodeState ≠ .settling ∧ (target = 31 ∨
       s.engine.nodeState ≠ .excluded ∧ s.roster.station = some target.toNat)
     (mine → s.line.requestQueue.length < 4 →
       exec (.requestArrival t station kind (target :: body)) s = .next { read with
         line := { read.line with
           requestQueue := s.line.requestQueue ++ [⟨station, kind, target, body⟩] } }) ∧
     (mine → 4 ≤ s.line.requestQueue.length →
       exec (.requestArrival t station kind (target :: body)) s = .next { read with
         sup := { s.sup with counters := s.sup.counters.set 7 (min 255 (s.sup.counters[7] + 1)) } }) ∧
     (¬ mine → exec (.requestArrival t station kind (target :: body)) s = .next read) ∧
     exec (.requestArrival t station kind []) s = .next { read with
       sup := { s.sup with counters := s.sup.counters.set 2 (min 255 (s.sup.counters[2] + 1)) } })

/-- R17, R65: the dispatcher answers UNKNOWN to a length that the kind does not define, and BUSY to
every other request while the store is VALIDATING. -/
def Obligations.DispatcherAnswersItself : Prop :=
  ∀ (s : State) (r : RequestRecord) (rest : List RequestRecord),
    s.line.requestQueue = r :: rest → s.hasRoom →
    (definedLength r.kind (1 + r.body.length) = false →
      exec .dispatchUnknown s = .next (s.replied r rest 5 0 [])) ∧
    (definedLength r.kind (1 + r.body.length) = true → s.store.phase = .validating →
      exec .dispatchBusy s = .next (s.replied r rest 2 0 []))

/-- R15, R191: STATION_RESET_FLUSH empties both queues but for an entry in transmission and the
STATION_RESET replies, and a REPORT follows. That another STATION_RESET's reply is spared too
(assumption 37), and that the REPORT follows also where the node was IDLE and stays so (assumption 59),
are the model's choices. -/
def Obligations.ResetFlushEmptiesTheQueues : Prop :=
  ∀ s : State, s.line.flushDue = true → ∃ u, exec .stationResetFlush s = .next u ∧
    u.line.requestQueue = [] ∧ u.line.flushDue = false ∧
    (∀ e ∈ u.line.txQueue, e.sending = true ∨ e.isResetReply = true ∨ e.owner = .report) ∧
    (s.engine.nodeState ≠ .settling → s.engine.nodeState ≠ .excluded → s.oneAttempt →
      (s.line.txQueue.filter TxEntry.isResetReply).length < 7 →
      u.line.txQueue.any (fun e => e.owner == .report && !e.sending &&
        e.payload == s.reportPayload) = true) ∧
    u.axes = s.axes ∧ u.store = s.store ∧ u.clock = s.clock ∧ u.reg = s.reg ∧
    u.levels = s.levels ∧ u.cues = s.cues

/-! ## The roster (chapter 2) -/

/-- R20: an expired delay offers one ANNOUNCE with station 31, the serial, rank 1 and the strap's
participant value, which waits in the queue while TX_OFF or LINE_STUCK is live. -/
def Obligations.AnnounceIsOffered : Prop :=
  ∀ (s : State) (due : Nat), s.roster.phase = .settling → s.roster.schedule = .delay due →
    s.hasRoom →
    (let serialByte := fun n : Nat => s.serial.extractLsb' (8 * n) 8
     let announce : TxEntry :=
       { cls := 3, station := 31, kind := 0, owner := .announce, sending := false,
         cancelled := false, flushing := false,
         payload := [serialByte 3, serialByte 2, serialByte 1, serialByte 0,
                     if s.participant then 129 else 1] }
     exec .announceDelayExpiry s = .next { s with
       now := max s.now due
       roster := { s.roster with schedule := .offered }
       line := { s.line with txQueue := placeEntry announce s.line.txQueue } })

/-- R21: an ANNOUNCE heard while SETTLING restarts the quiet timer and, for a new serial, joins a
sorted table with room in sorted order; a full table keeps 24 entries and counts it. The own position
is the own entry's new place, or BEYOND once that entry has left the table. -/
def Obligations.AnnounceJoinsTheTable : Prop :=
  ∀ (t : Nat) (station : BitVec 5) (payload : List Byte) (s : State),
    s.line.state = .receiving → s.roster.phase = .settling → payload.length = 5 →
    (let before := fun a b : RosterEntry =>
       a.rank.toNat < b.rank.toNat ∨ a.rank = b.rank ∧ a.serial.toNat < b.serial.toNat
     let serial := BitVec.ofNat 32 (fieldAt payload 0 4)
     ∃ u, exec (.announce t station payload) s = .next u ∧ u.now = max s.now t ∧
       u.roster.quietStart = u.now ∧
       ((∃ e ∈ s.roster.table, e.serial = serial) →
         u = { s with
           now := u.now
           line := { s.line with state := .intermission, dominantRun := 0 }
           roster := { s.roster with quietStart := u.now } }) ∧
       ((∀ e ∈ s.roster.table, e.serial ≠ serial) → s.roster.table.Pairwise before →
         ∃ e : RosterEntry, e.serial = serial ∧ e.rank = BitVec.ofNat 3 (byteAt payload 4) ∧
           e.participant = (decide (128 ≤ byteAt payload 4) && decide (e.rank ≠ 0)) ∧
           e.lastState = none ∧ e.missingRun = 0 ∧ e.watched = false ∧
           ∃ grown : List RosterEntry, grown.Perm (e :: s.roster.table) ∧ grown.Pairwise before ∧
             (s.roster.table.length < 24 → u.roster.table = grown ∧
               u.roster.beyondCount = s.roster.beyondCount) ∧
             (24 ≤ s.roster.table.length → u.roster.table = grown.dropLast ∧
               u.roster.beyondCount = min 255 (s.roster.beyondCount + 1)) ∧
             (∀ i, u.roster.ownPosition = some i →
               u.roster.table[i]?.map RosterEntry.serial = some s.serial) ∧
             (u.roster.ownPosition = none ↔ s.roster.ownPosition = none ∨
               ∀ e ∈ u.roster.table, e.serial ≠ s.serial)) ∧
       u = { s with
         now := u.now
         line := { s.line with state := .intermission, dominantRun := 0 }
         roster := u.roster })

/-- R24, R25: on a CLOSED roster an ANNOUNCE, or a DIGEST that differs, makes ROSTER_MISMATCH live and
leaves the table; an agreeing DIGEST, and any DIGEST while SETTLING, changes nothing. -/
def Obligations.LateAnnounceOrDigestMismatches : Prop :=
  ∀ (t : Nat) (station : BitVec 5) (s : State), s.line.state = .receiving →
    (let read : State := { s with now := max s.now t
                                  line := { s.line with
                                    state := .intermission, dominantRun := 0 } }
     (∀ payload : List Byte, payload.length = 5 → s.roster.phase = .closed →
       ∃ u, exec (.announce t station payload) s = .next u ∧
         u.roster = { s.roster with mismatch := true } ∧ u.axes = s.axes ∧ u.store = s.store ∧
         u.engine.nodeState ≠ .armed ∧ u.engine.nodeState ≠ .pending) ∧
     (∀ payload : List Byte, payload.length = 3 →
       (s.roster.phase = .settling → exec (.digest t station payload) s = .next read) ∧
       (s.roster.phase = .closed → byteAt payload 0 = s.roster.table.length →
         fieldAt payload 1 2 = s.roster.check.toNat →
         exec (.digest t station payload) s = .next read) ∧
       (s.roster.phase = .closed → ¬ (byteAt payload 0 = s.roster.table.length ∧
           fieldAt payload 1 2 = s.roster.check.toNat) →
         ∃ u, exec (.digest t station payload) s = .next u ∧
           u.roster = { s.roster with mismatch := true } ∧ u.engine.nodeState ≠ .armed)))

/-- R22, R23: the roster closes 300 ms after the quiet timer's last restart. With a place the node takes
its resume state and offers the DIGEST; with none it is EXCLUDED and its queue is emptied. R91, R92: a
node that resumes IDLE is ARMED when the six arm conditions hold at the closing and IDLE otherwise. -/
def Obligations.RosterCloses : Prop :=
  ∀ s : State, s.roster.phase = .settling → 3 ≤ s.roster.announceCount ∨ s.line.txOff = true →
    ∃ u, exec .rosterClosing s = .next u ∧ u.now = max s.now (s.roster.quietStart + 15000000) ∧
      u.roster.phase = .closed ∧ u.roster.table = s.roster.table ∧
      u.roster.station = s.roster.ownPosition ∧
      (∀ i, s.roster.ownPosition = some i →
        (s.roster.resume = .idle → (u.engine.nodeState = .idle ∨ u.engine.nodeState = .armed) ∧
          (u.engine.nodeState = .armed ↔
            ({ s with now := u.now, roster := { s.roster with phase := .closed } } : State).armable)) ∧
        (s.roster.resume = .ended ∨ s.roster.resume = .halted ∨ s.roster.resume = .stopped →
          u.engine.nodeState = s.roster.resume) ∧
        (s.roster.resume ≠ .excluded → s.line.txQueue.length < 7 → ∃ e ∈ u.line.txQueue,
          e.cls = 3 ∧ e.kind = 1 ∧ e.station = BitVec.ofNat 5 i ∧ e.payload =
            [BitVec.ofNat 8 s.roster.table.length, s.roster.check.extractLsb' 8 8,
             s.roster.check.extractLsb' 0 8])) ∧
      (s.roster.ownPosition = none → u.engine.nodeState = .excluded ∧
        ∀ e ∈ u.line.txQueue, e.sending = true)

/-- R27: ROSTER_REOPENING starts the roster again with the node's own entry, keeps the announce sequence
and the resume state, empties both queues and enters SETTLING; R129: from STOPPED it keeps STOPPED as
the resume state. The model's are that a load in VALIDATING leaves one reply more in the queue and that
registration is told nothing of a pass begun before the reply left (assumption 11), that a STATION_RESET
reply that waits is flushed with the rest, though R15 says of it that it is never flushed (assumption
37), that any other resume state stays the one of the hand-over (assumption 50), and that a PENDING node
offers no DECLINE (assumption 57). -/
def Obligations.RosterReopens : Prop :=
  ∀ s : State, s.line.reopenDue = true → ∃ u, exec .rosterReopening s = .next u ∧
    u.engine.nodeState = .settling ∧ u.roster.phase = .settling ∧ u.roster.station = none ∧
    u.roster.table.map (fun e => (e.serial, e.rank, e.participant)) =
      [(s.serial, 1, s.participant)] ∧
    u.roster.mismatch = false ∧ u.roster.beyondCount = 0 ∧ u.roster.announceCount = 0 ∧
    u.roster.resume = (if s.engine.nodeState = .stopped then .stopped else s.roster.resume) ∧
    u.roster.quietStart = s.now ∧
    (s.line.state ≠ .idle → s.roster.phase = .closed →
      u.roster.announceSeq = s.roster.announceSeq) ∧
    u.line.requestQueue = [] ∧ u.line.reopenDue = false ∧
    (s.store.phase ≠ .validating → ∀ e ∈ u.line.txQueue, e.sending = true) ∧
    u.axes = s.axes ∧ u.reg = s.reg ∧ u.levels = s.levels ∧ u.now = s.now

/-- R28: a REPORT from a listed station of rank above 0 sets the entry's last state, its time and its
missing run; outside the watch nothing else changes. One from no such entry is ignored. That a state
code of 13 to 15 is recorded as it comes is the model's choice (assumption 51). -/
def Obligations.ReportIsRecorded : Prop :=
  ∀ (t : Nat) (station : BitVec 5) (payload : List Byte) (s : State),
    s.line.state = .receiving → s.roster.phase = .closed → payload.length = 24 →
    (let read : State := { s with now := max s.now t
                                  line := { s.line with
                                    state := .intermission, dominantRun := 0 } }
     ((∀ e, s.roster.table[station.toNat]? = some e → e.rank = 0) →
       exec (.report t station payload) s = .next read) ∧
     (∀ e, s.roster.table[station.toNat]? = some e → e.rank ≠ 0 →
       (e.watched = false ∨ s.engine.nodeState.inPass = false →
         exec (.report t station payload) s = .next { read with roster := { s.roster with
           table := s.roster.table.set station.toNat { e with
             lastState := some (BitVec.ofNat 4 (byteAt payload 0)), lastReport := some read.now,
             missingRun := 0, heard := true } } })))

/-- R28, R30, R31: what the watch makes of a watched participant's report in a pass, by its state code
and pass start: its alignment, FRAME_SLIP at the second misaligned report in a row, PEER_HALTED while
the node is RUNNING with no ramp start held, and PEER_ABSENT. That a FRAME_SLIP of the same HALTING
report does not hide its PEER_HALTED, and that an absent tick index counts as 0, is the model's
deduction (assumption 15). -/
def Obligations.WatchJudgesReports : Prop :=
  ∀ (t : Nat) (station : BitVec 5) (payload : List Byte) (s : State) (e : RosterEntry),
    s.line.state = .receiving → s.roster.phase = .closed → payload.length = 24 →
    s.roster.table[station.toNat]? = some e → e.rank ≠ 0 → e.watched = true →
    s.engine.nodeState.inPass = true → s.defaults →
    (let code := byteAt payload 0 % 16
     let same := fieldAt payload 1 5 % 2 ^ 20 = s.passStart
     let stamp := 16 * (fieldAt payload 1 5 / 2 ^ 20) + 4 + station.toNat % 8
     let position := 16 * s.clock.roll + s.clock.tickIndex.getD 0
     let aligned := stamp ≤ position ∧ position ≤ stamp + 8
     let entry := { e with lastState := some (BitVec.ofNat 4 (byteAt payload 0))
                           lastReport := some (max s.now t), missingRun := 0, heard := true }
     let unhalted := s.engine.nodeState = .running ∧ s.engine.halt.rampStart = none
     let ramp := some (s.engine.tick + haltLead s.engine.tickDuration)
     ∃ u, exec (.report t station payload) s = .next u ∧
       (let leaves := fun x : RosterEntry => u.roster.table[station.toNat]? = some x
        let nothing := u.engine = s.engine ∧ u.sup = s.sup
        u.axes = s.axes ∧ u.engine.nodeState = s.engine.nodeState ∧
        (same → code = 6 → nothing ∧ leaves entry) ∧
        (same → code = 7 ∨ code = 8 → aligned → leaves { entry with misalignedRun := 0 } ∧
          (code = 7 ∨ ¬ unhalted → nothing)) ∧
        (same → code = 7 ∨ code = 8 → ¬ aligned →
          leaves { entry with misalignedRun := min 2 (e.misalignedRun + 1) } ∧
          u.sup.counter .misaligned = min 255 (s.sup.counter .misaligned + 1) ∧
          (e.misalignedRun = 1 → u.latchedCause .frameSlip = true ∧
            (unhalted → u.engine.halt.rampStart = ramp)) ∧
          (e.misalignedRun ≠ 1 → code = 7 ∨ ¬ unhalted →
            u.engine = s.engine ∧ u.sup.latched = s.sup.latched)) ∧
        (same → code = 8 → unhalted → u.latchedCause .peerHalted = true ∧
          u.engine.halt.rampStart = ramp) ∧
        (same → code = 9 ∨ code = 12 → leaves { entry with watched := false } ∧
          (unhalted → u.latchedCause .peerHalted = true ∧ u.engine.halt.rampStart = ramp) ∧
          (¬ unhalted → nothing)) ∧
        (same → code = 10 → nothing ∧ leaves { entry with watched := false }) ∧
        (¬ same ∨ code < 6 ∨ code = 11 ∨ 13 ≤ code → u.latchedCause .peerAbsent = true ∧
          leaves { entry with watched := false } ∧
          (unhalted → u.engine.halt.rampStart = ramp) ∧ (¬ unhalted → u.engine = s.engine))))

/-! ## The frame clock (chapter 3) -/

/-- R33, R35, R37, R45, R147, R148, R178: a real mark in FREE is counted, hands its OPEN to the channels
and begins ACQUIRING; a period that runs past the lockable range ends ACQUIRING with RANGE_LOW live, and
every cue pulse with it. -/
def Obligations.AcquiringBeginsAndTimesOut : Prop :=
  (∀ (t : Nat) (roll : Bool) (s : State), s.clock.state = .free →
    ∃ u, exec (.realMark t roll) s = .next u ∧ u.now = max s.now t ∧
      u.clock = { s.clock with
        state := .acquiring, measuringBase := some u.now, consistentRun := 0
        previousPeriod := none, closePending := true, tickIndex := none, lastMark := u.now
        roll := if roll then 0 else min 1048575 (s.clock.roll + 1) } ∧
      s.markOpens u ∧ u.store.pool = s.store.pool ∧ u.serial = s.serial) ∧
  (∀ (s : State) (base : Nat), s.clock.state = .acquiring → s.clock.measuringBase = some base →
    ∃ u, exec .acquireTimeout s = .next u ∧ u.now = max s.now (base + 50000000) ∧
      u.clock = { s.clock with
        state := .free, period := none, previousPeriod := none, timingBase := none
        tickIndex := none, missedRun := 0, consistentRun := 0, closePending := false
        rangeLow := true, rangeHigh := false } ∧
      u.engine.nodeState ≠ .armed ∧ u.axes = s.axes ∧
      (∀ i : Fin 8, s.cues[i].pulseEnd ≠ none →
        u.cues[i].active = false ∧ u.cues[i].pulseEnd = none))

/-- R36, R37, R147, R148: a real mark in ACQUIRING hands its OPEN to the channels and measures a period.
The consistent run rises with a period within 1/256 of the one before it, and at 4 the clock locks and
issues tick 0. R91, R92: the lock takes an IDLE node to ARMED when the six arm conditions hold with it.
-/
def Obligations.AcquiringMeasures : Prop :=
  ∀ (t : Nat) (roll : Bool) (s : State) (base : Nat),
    s.clock.state = .acquiring → s.clock.measuringBase = some base →
    (let now := max s.now t
     let m := now - base
     let inRange := 100000 ≤ m ∧ m ≤ 50000000
     let agrees := ∃ p, s.clock.previousPeriod = some p ∧ m ≤ p + p / 256 ∧ p ≤ m + p / 256
     ∃ u, exec (.realMark t roll) s = .next u ∧ u.now = now ∧
       u.clock.roll = (if roll then 0 else min 1048575 (s.clock.roll + 1)) ∧
       u.clock.measuringBase = some now ∧ s.markOpens u ∧
       (u.clock.rangeHigh = true ↔ m < 100000) ∧ (u.clock.rangeLow = true ↔ 50000000 < m) ∧
       (¬ inRange → u.clock.state = .acquiring ∧ u.clock.consistentRun = 0 ∧
         u.clock.previousPeriod = none) ∧
       (inRange → u.clock.previousPeriod = some m) ∧
       (inRange → ¬ agrees → u.clock.state = .acquiring ∧ u.clock.consistentRun = 1) ∧
       (inRange → agrees → s.clock.consistentRun + 1 < 4 →
         u.clock.state = .acquiring ∧ u.clock.consistentRun = s.clock.consistentRun + 1) ∧
       (inRange → agrees → 4 ≤ s.clock.consistentRun + 1 →
         u.clock.state = .locked ∧ u.clock.period = some m ∧ u.clock.timingBase = some now ∧
         u.clock.origin = .real ∧ u.clock.missedRun = 0 ∧ u.clock.tickIndex = some 0 ∧
         u.sup.notes[0] = true ∧
         (s.engine.nodeState = .idle → (u.engine.nodeState = .idle ∨ u.engine.nodeState = .armed) ∧
           (u.engine.nodeState = .armed ↔ ({ s with clock := u.clock } : State).armable))))

/-- R38: a real mark in LOCKED less than half a period after the timing base is spurious; one whose
period lies within 1/8 is tracked. R50, R147, R148, R155 to R160: a tracked mark hands its OPEN to the
channels. Each closes the frame it holds, its midpoint that of the open capture and this instant's, and
opens the next; while RECORDING, registration takes the midpoints into the frame that ends. R45, R47,
R155: in a pass that goes on, the mark first issues the unissued ticks of that frame, then raises the
open pass frame, and issues tick 0. -/
def Obligations.LockedClockTracks : Prop :=
  ∀ (t : Nat) (roll : Bool) (s : State) (base p : Nat),
    s.clock.state = .locked → s.clock.timingBase = some base → s.clock.measuringBase = some base →
    s.clock.period = some p →
    (let now := max s.now t
     let m := now - base
     (m < p / 2 → exec (.realMark t roll) s = .next { s with
       now := now
       clock := { s.clock with lastMark := now }
       sup := { s.sup with counters := s.sup.counters.set 1 (min 255 (s.sup.counters[1] + 1)) } }) ∧
     (p / 2 ≤ m → 100000 ≤ m → m ≤ 50000000 → m ≤ p + p / 8 → p ≤ m + p / 8 →
       ∃ u, exec (.realMark t roll) s = .next u ∧ u.now = now ∧ u.clock = { s.clock with
         period := some m, timingBase := some now, measuringBase := some now, origin := .real
         missedRun := 0, tickIndex := some 0, closePending := true, lastMark := now
         rangeHigh := false, rangeLow := false
         roll := if roll then 0 else min 1048575 (s.clock.roll + 1) } ∧
         s.markOpens u ∧ (s.defaults → s.frameTurned u)))

/-- R30, R44, R107 to R110, R147, R154, R157, R163: the mark that takes the roll count to F, real on a
LOCKED clock or local on one in LOCAL, begins the pass of a PENDING node: RUNNING at tick 0, the next
pass number, the other participants watched and registration RECORDING with a fresh capture buffer and
summary. The pass is comparable just when the reference has its rate and scale, no axis is compared yet,
and the frame before F is not recorded. A move of length 0 ends its pass ENDED on that tick 0. -/
def Obligations.MarkFBeginsThePass : Prop :=
  ∀ (s : State) (base p : Nat) (pass : PassParams),
    s.clock.timingBase = some base → s.clock.period = some p →
    s.engine.nodeState = .pending → s.engine.params = some pass → s.defaults →
    (let number := if 65535 ≤ s.engine.passNumber then 1 else s.engine.passNumber + 1
     let begun := fun (period : Nat) (u : State) =>
       u.engine.tick = 0 ∧ u.engine.moveTime = 0 ∧ u.engine.ticked = true ∧
       u.engine.prevTime = none ∧ u.engine.tickDuration = period / 16 ∧
       u.engine.passNumber = number ∧ u.clock.roll = pass.startFrame ∧
       u.reg.openFrame = some 0 ∧ u.reg.deviations = [] ∧ u.reg.listPass = number ∧
       u.reg.overflow = 0 ∧ u.reg.comparisons = 0 ∧ u.reg.grossSeen = false ∧
       (u.reg.comparable = true ↔
         ∃ d, s.reg.reference.holds = some d ∧ d.rate = pass.rate ∧ d.scale = pass.scale) ∧
       (∀ a : Fin 4, u.reg.compared[a] = false ∧ u.reg.maxima[a] = ⟨0, none⟩) ∧
       u.reg.reference = s.reg.reference ∧
       (s.reg.recording = false → u.reg.capture.frames = s.reg.capture.frames) ∧
       u.reg.capture.holds.map (fun d => (d.passNumber, d.rate, d.scale, d.framesRecorded)) =
         some (number, pass.rate, pass.scale, 0) ∧
       (∀ d, u.reg.capture.holds = some d → ∀ a : Fin 4, d.sources[a] = none) ∧
       u.reg.history.dropLast = s.reg.history.drop (s.reg.history.length - 7) ∧
       u.reg.history.getLast?.map
         (fun x => (x.passNumber, x.startFrame, x.rate, x.scale, x.comparable)) =
         some (number, pass.startFrame, pass.rate, pass.scale, u.reg.comparable) ∧
       s.channelsOpen u ∧
       (s.store.tEnd ≠ 0 → u.engine.nodeState = .running ∧ u.clock.tickIndex = some 0 ∧
         u.reg.recording = true ∧
         u.reg.history.getLast?.map Summary.ending = some .inProgress ∧
         ∀ (i : Nat) (e : RosterEntry), s.roster.table[i]? = some e → u.roster.table[i]? = some
           (if e.participant = true ∧ s.roster.ownPosition ≠ some i then
             { e with watched := true, missingRun := 0, misalignedRun := 0, heard := false }
           else e)) ∧
       (s.store.tEnd = 0 → u.engine.nodeState = .ended ∧
         u.engine.path = { onPath := true, tPark := 0, scale := pass.scale } ∧
         u.reg.recording = false ∧
         u.reg.history.getLast?.map Summary.ending = some .ended ∧
         ∀ (i : Nat) (e : RosterEntry), u.roster.table[i]? = some e → e.watched = false)
     (∀ (t : Nat) (roll : Bool), s.clock.state = .locked → s.clock.measuringBase = some base →
       (let m := max s.now t - base
        p / 2 ≤ m → 100000 ≤ m → m ≤ 50000000 → m ≤ p + p / 8 → p ≤ m + p / 8 →
        (if roll then 0 else min 1048575 (s.clock.roll + 1)) = pass.startFrame →
        ∃ u, exec (.realMark t roll) s = .next u ∧ begun m u)) ∧
     (s.clock.state = .localMarks → min 1048575 (s.clock.roll + 1) = pass.startFrame →
       ∃ u, exec .localMark s = .next u ∧ begun p u))

/-- R39, R147, R148: a tracking failure latches UNLOCK. In a pass the clock coasts, the mark is not
counted and MARK_LOST is latched; outside a pass the mark is counted, hands its OPEN to the channels,
and the clock measures anew. -/
def Obligations.TrackingFailure : Prop :=
  ∀ (t : Nat) (roll : Bool) (s : State) (base p : Nat),
    s.clock.state = .locked → s.clock.timingBase = some base → s.clock.measuringBase = some base →
    s.clock.period = some p → s.defaults →
    (let now := max s.now t
     let m := now - base
     p / 2 ≤ m → m < 100000 ∨ 50000000 < m ∨ p + p / 8 < m ∨ m + p / 8 < p →
     ∃ u, exec (.realMark t roll) s = .next u ∧ u.sup.notes[1] = true ∧
       (u.clock.rangeHigh = true ↔ m < 100000) ∧ (u.clock.rangeLow = true ↔ 50000000 < m) ∧
       (s.engine.nodeState.inPass = true → u.clock.state = .coasting ∧ u.clock.period = some p ∧
         u.clock.timingBase = some base ∧ u.clock.roll = s.clock.roll ∧
         u.clock.tickIndex = s.clock.tickIndex ∧ u.latchedCause .markLost = true) ∧
       (s.engine.nodeState.inPass = false → u.clock.state = .acquiring ∧ u.clock.period = none ∧
         u.clock.measuringBase = some now ∧ u.clock.tickIndex = none ∧
         u.now = now ∧ s.markOpens u ∧
         u.clock.roll = (if roll then 0 else min 1048575 (s.clock.roll + 1)) ∧
         (100000 ≤ m → m ≤ 50000000 → u.clock.consistentRun = 1 ∧
           u.clock.previousPeriod = some m)))

/-- R41, R50, R138, R144, R147, R148: the first real mark in HOLDOVER is absorbed within half a period
of the synthesized mark and counted after it; either relocks the clock with the period unchanged and
takes each channel's capture of the instant, with no edge or change of that base clock. That the source
of a re-open's capture is the present ratio's is the model's choice (assumption 48). An absorbed mark
leaves registration as it was. R45, R47, R155 to R160: what a counted mark does to the channels' frames,
and to the ticks and the open frame of a pass, is as at a tracked one. -/
def Obligations.HoldoverTakesTheMark : Prop :=
  ∀ (t : Nat) (roll : Bool) (s : State) (base p : Nat),
    s.clock.state = .holdover → s.clock.timingBase = some base → s.clock.period = some p →
    (let now := max s.now t
     ∃ u, exec (.realMark t roll) s = .next u ∧ u.now = now ∧ u.clock.state = .locked ∧
       u.clock.period = some p ∧ u.clock.timingBase = some now ∧
       u.clock.measuringBase = some now ∧ u.clock.missedRun = 0 ∧ u.clock.closePending = true ∧
       s.channelsOpen u ∧
       (now - base < p / 2 → u.clock.origin = .absorbed ∧
         u.clock.roll = (if roll then 0 else s.clock.roll) ∧
         u.clock.tickIndex = s.clock.tickIndex ∧ u.engine.tick = s.engine.tick ∧
         u.reg = s.reg) ∧
       (p / 2 ≤ now - base → u.clock.origin = .real ∧ u.clock.tickIndex = some 0 ∧
         u.clock.roll = (if roll then 0 else min 1048575 (s.clock.roll + 1)) ∧
         s.markOpens u ∧ (s.defaults → s.frameTurned u)))

/-- R40, R42: the holdover deadline makes a synthesized mark one and a half periods after the timing
base; the third in a row loses the marks. R45, R47, R147, R148, R155 to R160: what a counted mark does
to the channels' frames, and to the ticks and the open frame of a pass, is as at a tracked one. -/
def Obligations.HoldoverDeadline : Prop :=
  ∀ (s : State) (base p : Nat), s.clock.state = .locked ∨ s.clock.state = .holdover →
    s.clock.timingBase = some base → s.clock.period = some p →
    (let at' := base + 3 * p / 2
     ∃ u, exec .holdoverDeadline s = .next u ∧ u.now = max s.now at' ∧
       u.clock.roll = min 1048575 (s.clock.roll + 1) ∧
       u.sup.counter .missedMarks = min 255 (s.sup.counter .missedMarks + 1) ∧
       s.markOpens u ∧ (s.defaults → s.frameTurned u) ∧
       (s.clock.missedRun + 1 < 3 → u.clock.state = .holdover ∧ u.clock.timingBase = some at' ∧
         u.clock.measuringBase = s.clock.measuringBase ∧ u.clock.origin = .synthesized ∧
         u.clock.missedRun = s.clock.missedRun + 1 ∧ u.clock.tickIndex = some 0 ∧
         u.clock.closePending = false) ∧
       (3 ≤ s.clock.missedRun + 1 → u.latchedCause .markLost = true ∧
         u.clock.state = if u.engine.nodeState.inPass then .coasting else .free))

/-- R43, R44: a mark that the clock makes for itself comes one period after the timing base. While the
clock stays COASTING in a pass, or LOCAL, it is counted and begins its frame's ticks. LOCAL begins when
the mark-quiet time reaches 3 s at a lone participant's CLOSED roster with a valid move. That a first
coasting mark whose instant has passed comes at once, its timing base at the past instant, is the
model's choice (assumption 52). R45, R47, R147, R148, R155 to R160: what such a mark does to the
channels' frames, and to the ticks and the open frame of a pass, is as at a tracked one. -/
def Obligations.ClockMakesItsOwnMarks : Prop :=
  (∀ (s : State) (base p : Nat), s.clock.timingBase = some base → s.clock.period = some p →
    (s.clock.state = .coasting → ∃ u, exec .coastingMark s = .next u ∧ u.now = max s.now (base + p) ∧
      u.sup.counter .missedMarks = s.sup.counter .missedMarks ∧ (s.defaults → s.frameTurned u) ∧
      (u.engine.nodeState.inPass = true → u.clock.state = .coasting ∧ u.clock.period = some p ∧
        s.markOpens u ∧ u.clock.closePending = false ∧
        u.clock.timingBase = some (base + p) ∧ u.clock.origin = .synthesized ∧
        u.clock.roll = min 1048575 (s.clock.roll + 1) ∧ u.clock.tickIndex = some 0)) ∧
    (s.clock.state = .localMarks → ∃ u, exec .localMark s = .next u ∧
      u.now = max s.now (base + p) ∧
      u.sup.counter .missedMarks = s.sup.counter .missedMarks ∧ (s.defaults → s.frameTurned u) ∧
      (u.clock.state = .localMarks → u.clock.period = some p ∧
        s.markOpens u ∧ u.clock.closePending = false ∧
        u.clock.timingBase = some (base + p) ∧ u.clock.origin = .localMark ∧
        u.clock.roll = min 1048575 (s.clock.roll + 1) ∧ u.clock.tickIndex = some 0))) ∧
  (∀ (s : State) (h : MoveHeader) (own : Nat) (e : RosterEntry),
    s.clock.state = .free → s.roster.phase = .closed → s.roster.ownPosition = some own →
    s.roster.table[own]? = some e → e.participant = true →
    (s.roster.table.filter RosterEntry.participant).length = 1 →
    s.store.phase = .valid → s.store.header = some h →
    ∃ u, exec .localEntry s = .next u ∧ u.now = max s.now (s.clock.lastMark + 150000000) ∧
      u.clock.state = .localMarks ∧ u.clock.period = some (50000000 / h.refRate) ∧
      u.clock.timingBase = some u.now ∧ u.clock.origin = .localMark ∧
      s.markOpens u ∧ u.clock.closePending = false ∧
      u.clock.roll = min 1048575 (s.clock.roll + 1) ∧ u.clock.tickIndex = some 0)

/-- R50, R138, R144, R147, R148, R156 to R160: a falling edge closes the frame: each channel hands the
midpoint of its open and close captures, with the frame's roll count and that a CLOSE closed it. No edge
or change of that base clock is in the close capture. While RECORDING, registration writes the midpoints
of the enabled axes to their cells and, at pass frame 0, their sources, decides there which axes are
compared, and compares them; a GROSS deviation raises GROSS_DEVIATION, which under HALT_RIG is an own
halt event in RUNNING. At pass frame 8,192 or later it records nothing and latches TRUNCATED; that a
disabled axis's midpoint there latches nothing is the model's choice (assumption 53). -/
def Obligations.FallingEdgeClosesTheFrame : Prop :=
  ∀ (t : Nat) (s : State), s.clock.closePending = true →
    (s.clock.state = .coasting ∨ s.clock.state = .localMarks →
      exec (.shutterFall t) s = .next { s with now := max s.now t }) ∧
    (s.clock.state ≠ .coasting → s.clock.state ≠ .localMarks →
      ∃ u, exec (.shutterFall t) s = .next u ∧ u.now = max s.now t ∧
        s.framesClose true u.now ∧
        u.clock = { s.clock with closePending := false } ∧
        (∀ a : Fin 4, u.axes[a].openCapture = none ∧ u.axes[a].commanded = s.axes[a].commanded) ∧
        (s.reg.recording = false → u.reg = s.reg ∧ u.sup = s.sup) ∧
        u.reg.openFrame = s.reg.openFrame ∧ s.frameTaken u.now u ∧
        ((∀ a, s.midpointTaken u.now a = none) → u.sup = s.sup) ∧
        (s.sup.dispositions[15] = .warn → u = { s with
          now := u.now, clock := u.clock, axes := u.axes, reg := u.reg
          sup := { s.sup with
            latched := u.sup.latched, axisSets := u.sup.axisSets, notes := u.sup.notes } }) ∧
        (s.sup.dispositions[15] = .haltRig → s.engine.nodeState = .running →
          s.engine.halt.rampStart = none → (∃ d ∈ u.reg.deviations.drop s.reg.deviations.length,
            d.grade = .gross) →
          u.engine.halt.rampStart = some (s.engine.tick + haltLead s.engine.tickDuration)) ∧
        (∀ (frame : Nat) (d : PassDescriptor) (a : Fin 4) (o : OpenCapture),
          s.reg.recording = true → s.reg.openFrame = some frame → frame < 8192 →
          s.reg.capture.holds = some d → s.cellsWf = true → s.axes[a].openCapture = some o →
          (u.reg.capture.holds.map PassDescriptor.framesRecorded = some (frame + 1)) ∧
          ∃ row, u.reg.capture.frames.read frame = some row ∧
            row[a] = (s.midpointTaken u.now a).map Prod.fst))

/-! ## Pass ticks and slew ticks (chapters 3 and 6) -/

/-- R32, R46, R72, R73, R81, R83, R86, R87, R88, R108, R109, R112, R134, R146, R161, R170, R176, R177,
R178: a pass tick counts the cue pulses down. In RUNNING, up to and including a held ramp start, it also
takes T to the smaller of n r and T_end, raises what the evaluation raises, hands each channel its
evaluated target with the tick's duration, evaluates the levels on index 0, applies the crossing
entries, offers the REPORT of a report tick and makes the missing-report checks; at T_end it ends the
pass ENDED and registration has its verdict. Each crossing entry sets, clears or pulses the lines of its
mask, on the tick that ends the pass too. -/
def Obligations.PassTickAdvancesThePass : Prop :=
  ∀ (s : State) (j d p : Nat), s.tickComes j d p →
    (s.engine.nodeState.inPass = false → exec .passTick s = .next { s with
      now := max s.now d, clock := { s.clock with tickIndex := some j }, cues := s.countedCues }) ∧
    (∀ pass : PassParams, s.engine.nodeState = .running → s.engine.params = some pass → s.defaults →
      (let n := if s.engine.ticked then s.engine.tick + 1 else s.engine.tick
       let prev := if s.engine.ticked then some s.engine.moveTime else none
       let time := min (n * pass.rate) s.store.tEnd
       let here : State := { s with now := max s.now d }
       (∀ ramp, s.engine.halt.rampStart = some ramp → n ≤ ramp) →
       ∃ u, exec .passTick s = .next u ∧ u.now = max s.now d ∧ u.engine.tick = n ∧
         u.engine.ticked = true ∧ u.engine.tickDuration = p / 16 ∧ u.engine.moveTime = time ∧
         u.clock.roll = s.clock.roll ∧ u.store = s.store ∧
         s.raisedBy (s.store.evalAxis time pass.scale) .pass n u ∧
         (∀ a ev, s.store.evalAxis time pass.scale a = some ev → ev.clamped = true →
           s.engine.halt.rampStart = none → time ≠ s.store.tEnd →
           u.engine.halt.rampStart = some (n + haltLead (p / 16)) ∧
           u.engine.halt.cause = some ⟨11, s.ownNumber⟩) ∧
         (∀ a ev, s.store.evalAxis time pass.scale a = some ev →
           u.engine.holdTargets[a] = ev.target ∧
           u.axes[a] = here.handed a ev.target (p / 16) ∧
           (here.followsBadly a → u.latchedCause .followingError = true ∧
             (time ≠ s.store.tEnd → u.engine.halt.rampStart ≠ none))) ∧
         (∀ a, s.store.evalAxis time pass.scale a = none → u.axes[a] = s.axes[a]) ∧
         (∀ a : Fin 4, u.axes[a].commanded = s.axes[a].commanded) ∧
         (∀ l v, s.store.evalLevel time l = some v → j = 0 →
           u.levels[l].level = v ∧ u.levels[l].source = .evaluated ∧
           u.levels[l].activeDuty = s.levels[l].activeDuty) ∧
         (∀ l, s.store.evalLevel time l = none ∨ j ≠ 0 → u.levels[l] = s.levels[l]) ∧
         (time = s.store.tEnd → u.engine.nodeState = .ended ∧ u.engine.halt.rampStart = none ∧
           u.engine.path = { onPath := true, tPark := time, scale := pass.scale } ∧
           u.reg = s.reg.passEnded .ended none s.engine.halt.late ∧
           s.cuesAtEnd here prev time u ∧ ∀ e ∈ u.roster.table, e.watched = false) ∧
         (time ≠ s.store.tEnd → u.engine.nodeState = .running ∧
           u.clock.tickIndex = some j ∧ u.reg = s.reg ∧
           (∀ i : Fin 8, u.cues[i] = s.cueAfter prev time i) ∧
           s.missingChecked pass.interval n u ∧
           (∀ own, s.roster.station = some own → s.line.txQueue.length < 7 →
             ((∃ frame, reportInstant own pass.interval n frame) → ∃ e ∈ u.line.txQueue,
               e.owner = .report ∧ e.sending = false ∧ e.payload.length = 24 ∧
               byteAt e.payload 0 % 16 = 7 ∧
               fieldAt e.payload 1 5 = s.clock.roll % 2 ^ 20 * 2 ^ 20 + pass.startFrame % 2 ^ 20) ∧
             ((∀ frame, ¬ reportInstant own pass.interval n frame) →
               u.line.txQueue.filter (fun e => e.owner == .report) =
                 s.line.txQueue.filter fun e => e.owner == .report)))))

/-- R32, R73, R81, R83, R86, R87, R88, R112, R124, R125, R134, R161, R170, R176, R177, R178: past the
ramp start a pass tick runs on the ramp. T gains r (Lh - j) / Lh, clipped at T_end; what the evaluation
raises, targets, levels, cues, the REPORT of a report tick and the missing-report checks come as on any
tick; and the pass ends HALTED on the path at j = Lh or at T_end, with registration's verdict. The
crossing entries act on the tick that ends the pass too. -/
def Obligations.RampTickSlowsThePass : Prop :=
  ∀ (s : State) (j d p ramp : Nat) (pass : PassParams), s.tickComes j d p →
    s.engine.nodeState = .running ∨ s.engine.nodeState = .halting →
    s.engine.params = some pass → s.engine.ticked = true → s.defaults →
    s.engine.halt.rampStart = some ramp → ramp < s.engine.tick + 1 →
    (let n := s.engine.tick + 1
     let index := n - ramp
     let time := min (s.engine.moveTime + pass.rate * (pass.haltLength - index) / pass.haltLength)
       s.store.tEnd
     let here : State := { s with now := max s.now d }
     ∃ u, exec .passTick s = .next u ∧ u.engine.tick = n ∧
       u.engine.halt.rampIndex = index ∧ u.engine.halt.rampStart = some ramp ∧
       u.engine.moveTime = time ∧ u.engine.tickDuration = p / 16 ∧ u.store = s.store ∧
       s.raisedBy (s.store.evalAxis time pass.scale) .pass n u ∧
       (∀ a ev, s.store.evalAxis time pass.scale a = some ev →
         u.engine.holdTargets[a] = ev.target ∧
         u.axes[a] = here.handed a ev.target (p / 16)) ∧
       (∀ a, s.store.evalAxis time pass.scale a = none → u.axes[a] = s.axes[a]) ∧
       (∀ l v, s.store.evalLevel time l = some v → j = 0 →
         u.levels[l].level = v ∧ u.levels[l].source = .evaluated) ∧
       (∀ l, s.store.evalLevel time l = none ∨ j ≠ 0 → u.levels[l] = s.levels[l]) ∧
       (pass.haltLength ≤ index ∨ time = s.store.tEnd → u.engine.nodeState = .halted ∧
         u.engine.path = { onPath := true, tPark := time, scale := pass.scale } ∧
         u.reg = s.reg.passEnded .halted s.engine.halt.cause s.engine.halt.late ∧
         s.cuesAtEnd here (some s.engine.moveTime) time u ∧ ∀ e ∈ u.roster.table, e.watched = false) ∧
       (index < pass.haltLength → time ≠ s.store.tEnd → u.engine.nodeState = .halting ∧
         u.reg = s.reg ∧
         (∀ i : Fin 8, u.cues[i] = s.cueAfter (some s.engine.moveTime) time i) ∧
         s.missingChecked pass.interval n u ∧
         (∀ own frame, s.roster.station = some own → s.line.txQueue.length < 8 →
           reportInstant own pass.interval n frame → ∃ e ∈ u.line.txQueue,
             e.owner = .report ∧ e.sending = false ∧ byteAt e.payload 0 % 16 = 8)))

/-- R49, R73, R81, R83, R91, R92, R94, R95, R98, R100, R101, R126, R127, R134, R146, R170: slew ticks
come every millisecond. One is disregarded in a pass; in STOPPED it makes the following check; at rest
it hands each axis that owes steps its hold target again; it moves every quantity of an axis slew by the
slew rule, hands its step targets, completes it or brings it to rest; and it moves, completes and rests
a return, each in its decelerating form too, with the level values of a completed CUE or SEEK, of a
return's 16th slew ticks, of the tick on which T reaches 0 and of a rest. The model's are that a slew or
return completes before the following checks of its tick (assumption 17), that a return halted on the
tick on which T reaches 0 does not complete on it (assumption 31), that the destination is the hold
target of a slew that began at it (assumption 54), and that every distance is read before the tick's
move of an axis slew and after that of a return (assumption 58). Which of its reads take the value
before an edge of the base clock is the model's deduction (assumption 45). A completed CUE, SEEK or
RETURN enters ARMED when the six arm conditions hold at its instant and IDLE otherwise. -/
def Obligations.SlewTickMovesTheRig : Prop :=
  ∀ s : State,
    (let d := s.clock.slewStart + 50000
     let clock := { s.clock with slewStart := d }
     let here : State := { s with now := max s.now d }
     let toStep := fun q : Quantity => if q.start ≤ q.dest then q.value / 256 else -(-q.value / 256)
     let holds := fun (u : State) => ∀ a : Fin 4,
       u.engine.holdTargets[a] = s.axes[a].commanded.toInt
     (s.engine.nodeState.inPass = true → exec .slewTick s = .next { s with
       now := max s.now d, clock := clock }) ∧
     (s.defaults → s.engine.nodeState = .stopped → ∃ u, exec .slewTick s = .next u ∧
       u = { s with now := max s.now d, clock := clock, sup := u.sup } ∧
       (u.latchedCause .followingError = true ↔
         s.latchedCause .followingError = true ∨ ∃ a, here.followsBadly a) ∧
       ∀ a, here.followsBadly a → u.sup.axisSets[2].getLsbD a.val = true) ∧
     (s.defaults → s.engine.nodeState ∈ [NodeState.idle, .armed, .pending, .halted, .ended, .loading,
         .settling, .excluded] →
       ∃ u, exec .slewTick s = .next u ∧ u.now = max s.now d ∧ u.clock.slewStart = d ∧
         u.engine.holdTargets = s.engine.holdTargets ∧ u.store = s.store ∧
         (∀ a : Fin 4, u.axes[a] = here.rehanded a) ∧
         (s.engine.nodeState ≠ .settling → s.engine.nodeState ≠ .excluded →
           (u.latchedCause .followingError = true ↔
             s.latchedCause .followingError = true ∨ ∃ a, here.followsBadly a)) ∧
         (s.engine.nodeState ∈ [NodeState.halted, .ended, .loading, .idle] →
           u.engine = s.engine)) ∧
     (∀ kind tPark scale (moved : Vector (Option Quantity) 4), s.defaults →
       s.engine.nodeState = .slewing → s.engine.slew = some (.axes kind tPark scale moved false) →
       (let still := ∀ (a : Fin 4) (q : Quantity), moved[a] = some q → q.distance = 0
        let aim := fun a : Fin 4 => match moved[a] with
          | some q => toStep q
          | none => s.engine.holdTargets[a]
        let there : State := { here with
          engine := { s.engine with holdTargets := Vector.ofFn aim } }
        ∃ u, exec .slewTick s = .next u ∧ u.now = max s.now d ∧ u.clock.slewStart = d ∧
         u.store = s.store ∧
         (∀ a : Fin 4, u.axes[a].commanded = s.axes[a].commanded) ∧
         (¬ still → u.engine.nodeState = .slewing ∧ u.engine.path = s.engine.path ∧
           (∃ halted, u.engine.slew = some (.axes kind tPark scale
             (Vector.ofFn fun a => moved[a].map Quantity.advance) halted) ∧
             (halted = true → ∃ a, here.followsBadly a)) ∧
           u.levels = s.levels ∧
           ∀ a : Fin 4,
             (∀ q, moved[a] = some q → u.engine.holdTargets[a] = toStep q.advance ∧
               u.axes[a] = here.handed a (toStep q.advance) 50000) ∧
             (moved[a] = none → u.axes[a] = here.rehanded a)) ∧
         (still → (∀ (a : Fin 4) (q : Quantity), moved[a] = some q →
             s.axes[a].commandedAt here.now = toStep q) →
           u.axes = s.axes ∧ u.engine.slew = none ∧
           (∀ a : Fin 4, u.engine.holdTargets[a] = aim a) ∧
           (kind = .jog → u.engine.nodeState = .idle ∧ u.engine.path = s.engine.path ∧
             u.levels = s.levels) ∧
           (kind ≠ .jog → s.levelsTaken tPark u ∧
             (u.engine.nodeState = .idle ∨ u.engine.nodeState = .armed) ∧
             (u.engine.nodeState = .armed ↔ (∀ a, ¬ here.followsBadly a) ∧
               ({ here with engine := { s.engine with path :=
                 { onPath := true, tPark := tPark, scale := scale } } } : State).armable) ∧
             (u.engine.path.onPath = false → u.engine.nodeState = .idle ∧
               ∃ a, here.followsBadly a) ∧
             u.engine.path.tPark = tPark ∧ u.engine.path.scale = scale)) ∧
         (∀ (b : Fin 4) (q : Quantity), still → moved[b] = some q →
           s.axes[b].commandedAt here.now ≠ toStep q →
           (∀ a : Fin 4, u.axes[a] = there.rehanded a) ∧ u.engine.path = s.engine.path ∧
           u.levels = s.levels ∧
           (let rests := ∀ a : Fin 4, moved[a] ≠ none → here.standsOn a (aim a)
            (rests → u.engine.nodeState = .idle ∧ u.engine.slew = none ∧ holds u) ∧
            (¬ rests → u.engine.nodeState = .slewing ∧
              ∀ a : Fin 4, u.engine.holdTargets[a] = aim a))))) ∧
     (∀ kind tPark scale (moved : Vector (Option Quantity) 4), s.defaults →
       s.engine.nodeState = .slewing → s.engine.slew = some (.axes kind tPark scale moved true) →
       (let target := fun a : Fin 4 => match moved[a] with
          | some q => if q.brake.value = q.value then s.engine.holdTargets[a] else toStep q.brake
          | none => s.engine.holdTargets[a]
        let rests := ∀ (a : Fin 4) (q : Quantity), moved[a] = some q →
          q.brake.velocity = 0 ∧ here.standsOn a (target a)
        ∃ u, exec .slewTick s = .next u ∧ u.clock.slewStart = d ∧ u.store = s.store ∧
         u.engine.path = s.engine.path ∧ u.levels = s.levels ∧
         (∀ a : Fin 4,
           (∀ q, moved[a] = some q → q.brake.value ≠ q.value →
             u.axes[a] = here.handed a (toStep q.brake) 50000) ∧
           ((∀ q, moved[a] = some q → q.brake.value = q.value) → u.axes[a] = here.rehanded a)) ∧
         (rests → u.engine.nodeState = .idle ∧ u.engine.slew = none ∧ holds u) ∧
         (¬ rests → u.engine.nodeState = .slewing ∧
           (∀ a : Fin 4, u.engine.holdTargets[a] = target a) ∧
           u.engine.slew = some (.axes kind tPark scale
             (Vector.ofFn fun a => moved[a].map Quantity.brake) true)))) ∧
     (∀ (q : Quantity) (count : Nat), s.defaults →
       s.engine.nodeState = .returning → s.engine.slew = some (.path q count false) →
       (let plays := fun a : Fin 4 => s.store.axisPlays a = true
        let time := q.advance.value.toNat
        let evs := s.store.evalAxis time s.engine.path.scale
        let aim := fun a : Fin 4 => if q.distance = 0 then s.engine.holdTargets[a] else
          ((evs a).map AxisEval.target).getD s.engine.holdTargets[a]
        let done := ∀ a, plays a → s.axes[a].commandedAt here.now = aim a
        let rests := ∀ a, plays a → here.standsOn a (aim a)
        let halts := q.distance ≠ 0 ∧
          ∃ a ev, evs a = some ev ∧ (ev.clamped = true ∨ here.followsBadly a)
        ∃ u, exec .slewTick s = .next u ∧ u.clock.slewStart = d ∧ u.store = s.store ∧
         (∀ a : Fin 4, u.axes[a].commanded = s.axes[a].commanded) ∧
         (q.distance ≠ 0 → u.engine.moveTime = time ∧ s.raisedBy evs .slew (count + 1) u ∧
           ∀ a : Fin 4, (∀ ev, evs a = some ev → u.axes[a] = here.handed a ev.target 50000) ∧
             (evs a = none → u.axes[a] = s.axes[a])) ∧
         (q.distance ≠ 0 → (count + 1) % 16 = 0 ∨ q.advance.distance = 0 →
           s.levelsTaken time u) ∧
         (q.advance.distance ≠ 0 ∨ halts → u.engine.nodeState = .returning ∧
           u.engine.path = s.engine.path ∧
           (∃ halted, u.engine.slew = some (.path q.advance (count + 1) halted) ∧
             (halted = true ↔ halts)) ∧
           (∀ a : Fin 4, u.engine.holdTargets[a] = aim a) ∧
           ((count + 1) % 16 ≠ 0 → q.advance.distance ≠ 0 → u.levels = s.levels)) ∧
         (q.advance.distance = 0 → time = 0 → ¬ halts →
           (done → u.engine.slew = none ∧ (q.distance = 0 → u.axes = s.axes ∧ u.levels = s.levels) ∧
             (u.engine.nodeState = .idle ∨ u.engine.nodeState = .armed) ∧
             (u.engine.nodeState = .armed ↔ (q.distance = 0 → ∀ a, ¬ here.followsBadly a) ∧
               ({ here with engine := { s.engine with path :=
                 { s.engine.path with onPath := true, tPark := 0 } } } : State).armable) ∧
             (u.engine.path = { s.engine.path with onPath := true, tPark := 0 } ∨
               u.engine.path = { s.engine.path with onPath := false, tPark := 0 } ∧
                 u.engine.nodeState = .idle ∧ ∃ a, here.followsBadly a)) ∧
           (¬ done → rests → u.engine.nodeState = .halted ∧ u.engine.slew = none ∧ holds u ∧
             (q.distance = 0 → u.axes = s.axes) ∧ s.levelsTaken 0 u ∧
             u.engine.path = { s.engine.path with onPath := true, tPark := 0 }) ∧
           (¬ rests → u.engine.nodeState = .returning ∧ u.engine.path = s.engine.path ∧
             (q.distance = 0 → u.levels = s.levels ∧ ∀ a : Fin 4,
               (plays a → u.axes[a] = here.rehanded a) ∧ (¬ plays a → u.axes[a] = s.axes[a])) ∧
             ∀ a : Fin 4, u.engine.holdTargets[a] = aim a)))) ∧
     (∀ (q : Quantity) (count : Nat), s.defaults →
       s.engine.nodeState = .returning → s.engine.slew = some (.path q count true) →
       (let time := q.brake.value.toNat
        let evs := s.store.evalAxis time s.engine.path.scale
        let aim := fun a : Fin 4 => ((evs a).map AxisEval.target).getD s.engine.holdTargets[a]
        let rests := q.brake.velocity = 0 ∧
          ∀ a : Fin 4, s.store.axisPlays a = true → here.standsOn a (aim a)
        ∃ u, exec .slewTick s = .next u ∧ u.clock.slewStart = d ∧ u.store = s.store ∧
         u.engine.moveTime = time ∧ s.raisedBy evs .slew (count + 1) u ∧
         (∀ a : Fin 4, (∀ ev, evs a = some ev → u.axes[a] = here.handed a ev.target 50000) ∧
           (evs a = none → u.axes[a] = s.axes[a])) ∧
         ((count + 1) % 16 = 0 ∨ rests → s.levelsTaken time u) ∧
         ((count + 1) % 16 ≠ 0 → ¬ rests → u.levels = s.levels) ∧
         (rests → u.engine.nodeState = .halted ∧ u.engine.slew = none ∧ holds u ∧
           u.engine.path = { s.engine.path with onPath := true, tPark := time }) ∧
         (¬ rests → u.engine.nodeState = .returning ∧ u.engine.path = s.engine.path ∧
           u.engine.slew = some (.path q.brake (count + 1) true) ∧
           ∀ a : Fin 4, u.engine.holdTargets[a] = aim a))))

/-- R111, R113, R167, R168, R190, R192: the report timer expires 100 ms after it was set to 0, offers a
REPORT and starts again; at a PWM period boundary each active duty takes its pending duty. The REPORT is
laid out by 12.1, its fault summary bit by bit. -/
def Obligations.TimersComeRound : Prop :=
  ∀ s : State,
    (s.engine.nodeState.inPass = false → s.engine.nodeState ≠ .settling → s.hasRoom →
      ∃ u, exec .reportTimerExpiry s = .next u ∧
        u = { s with
          now := max s.now (s.engine.reportStart + 5000000)
          engine := { s.engine with reportStart := u.now }
          line := { s.line with txQueue := u.line.txQueue } } ∧
        ∃ e ∈ u.line.txQueue, e.owner = .report ∧ e.sending = false ∧ e.payload.length = 24 ∧
          [NodeState.settling, .excluded, .idle, .loading, .slewing, .armed, .pending, .running,
            .halting, .halted, .ended, .returning, .stopped][byteAt e.payload 0 % 16]? =
            some s.engine.nodeState ∧
          byteAt e.payload 0 / 16 = (if s.store.phase = .valid then 1 else 0) ∧
          fieldAt e.payload 1 5 = (s.clock.roll % 2 ^ 20) * 2 ^ 20 + s.passStart % 2 ^ 20 ∧
          (∀ h, s.store.phase = .valid → s.store.header = some h →
            fieldAt e.payload 7 4 = h.moveId.toNat) ∧
          (s.store.phase ≠ .valid → fieldAt e.payload 7 4 = 0) ∧
          (let flags := byteAt e.payload 6
           let latchedUnder := fun p : Disposition → Prop =>
             ∃ i : Fin 18, s.sup.latched[i] = true ∧ p s.sup.dispositions[i]
           (bitOf flags 7 = true ↔ latchedUnder fun d => d = .haltRig ∨ d = .stopNow) ∧
           (bitOf flags 6 = true ↔ latchedUnder fun d => d = .warn) ∧
           (bitOf flags 5 = true ↔ ∃ (a : Fin 4) (side : LimitEnd),
             s.sup.setup.limitSens = .edgeLevel ∧ (s.sup.limit a side).low = true ∨
             s.sup.setup.limitSens = .edge ∧ (s.sup.limit a side).latch = true) ∧
           bitOf flags 4 = s.sup.estopLow ∧ bitOf flags 3 = s.line.txOff ∧
           [ClockState.free, .acquiring, .locked, .holdover, .coasting, .localMarks][flags % 8]? =
             some s.clock.state) ∧
          byteAt e.payload 11 = s.engine.passNumber % 256 ∧
          ∀ a : Fin 4, (s.axes[a].commandedAt u.now).natAbs ≤ 8388607 →
            signedAt e.payload (12 + 3 * a.val) 3 = s.axes[a].commandedAt u.now) ∧
    (∃ u, exec .pwmPeriodBoundary s = .next u ∧
      u = { s with
        now := max s.now (s.pwmStart + 2048), pwmStart := s.pwmStart + 2048
        levels := u.levels } ∧
      ∀ l : Fin 2, u.levels[l] = { s.levels[l] with activeDuty := s.levels[l].pendingDuty })

/-! ## The telegrams that begin and end a pass (chapters 6 and 7) -/

/-- R29, R102, R103: a START is accepted when none of the findings applies, and declined with the first
that does; a node that is PENDING or in a pass counts it as a stray. -/
def Obligations.StartIsJudged : Prop :=
  ∀ (t : Nat) (station : BitVec 5) (p : List Byte) (s : State),
    s.line.state = .receiving → p.length = 16 →
    (let read := s.received t
     let judges := s.participant = true ∧ s.roster.station ≠ none
     let busy := s.engine.nodeState = .pending ∨ s.engine.nodeState.inPass = true
     let startFrame := fieldAt p 0 3 % 2 ^ 20
     let stale := ∃ (i : Nat) (e : RosterEntry), s.roster.table[i]? = some e ∧
       e.participant = true ∧ s.roster.ownPosition ≠ some i ∧
       ¬ (e.lastState = some 5 ∧ ∃ heard, e.lastReport = some heard ∧
          read.now - heard < 15000000)
     let findings : List (Nat × Prop) :=
       [(7, s.roster.mismatch = true),
        (0, s.engine.nodeState ≠ .armed),
        (6, ¬ (1 ≤ fieldAt p 7 2 ∧ fieldAt p 7 2 ≤ 16384 ∧ 256 ≤ fieldAt p 9 3 ∧
              fieldAt p 9 3 ≤ 65536 ∧ 16 ≤ fieldAt p 12 2 ∧ fieldAt p 12 2 ≤ 4096 ∧
              byteAt p 14 ∈ [1, 2, 4, 8])),
        (4, fieldAt p 3 4 ≠ s.validMoveId),
        (5, fieldAt p 9 3 ≠ s.engine.path.scale),
        (2, byteAt p 15 ≠ (s.roster.table.filter RosterEntry.participant).length),
        (3, startFrame ≤ s.clock.roll + 1),
        (1, stale)]
     (¬ judges → exec (.start t station p) s = .next read) ∧
     (judges → busy → exec (.start t station p) s = .next { read with sup := { s.sup with
       counters := s.sup.counters.set 10 (min 255 (s.sup.counters[10] + 1)) } }) ∧
     (judges → ¬ busy → (∀ f ∈ findings, ¬ f.2) →
       ∃ u, exec (.start t station p) s = .next u ∧ u.engine.nodeState = .pending ∧
         u.engine.params = some
           { startFrame := startFrame, moveId := BitVec.ofNat 32 (fieldAt p 3 4),
             rate := fieldAt p 7 2, scale := fieldAt p 9 3, haltLength := fieldAt p 12 2,
             interval := byteAt p 14 } ∧
         u.engine.path = s.engine.path ∧ u.axes = s.axes ∧ u.store = s.store ∧ u.reg = s.reg ∧
         u.sup.latched = s.sup.latched) ∧
     (∀ (before behind : List (Nat × Prop)) (n : Nat) (found : Prop), judges → ¬ busy → s.hasRoom →
       findings = before ++ (n, found) :: behind → (∀ f ∈ before, ¬ f.2) → found →
       ∃ u, exec (.start t station p) s = .next u ∧
         u = { read with line := { read.line with txQueue := u.line.txQueue } } ∧
         ∃ e ∈ u.line.txQueue, e.cls = 1 ∧ e.kind = 1 ∧ e.owner = .decline ∧
           e.payload.length = 4 ∧ fieldAt e.payload 0 3 = startFrame ∧ byteAt e.payload 3 = n))

/-- R44, R105, R106, R119, R179, R187: a DECLINE naming the node's start frame takes a PENDING node back
to ARMED, its cue lines at rest, and halts a RUNNING one through PEER_DECLINED; any other is ignored.
That a PENDING node is IDLE instead when the clock leaves LOCAL with it is the model's deduction
(assumption 32). -/
def Obligations.DeclineActs : Prop :=
  ∀ (t : Nat) (station : BitVec 5) (p : List Byte) (pass : PassParams) (s : State),
    s.line.state = .receiving → p.length = 4 → s.engine.params = some pass →
    (let read := s.received t
     let named := pass.startFrame = fieldAt p 0 3 % 2 ^ 20
     let leaves := s.clock.state = .coasting ∨
       s.clock.state = .localMarks ∧ read.localHolds = false
     (¬ named ∨ s.engine.nodeState ≠ .pending ∧ s.engine.nodeState ≠ .running →
       exec (.decline t station p) s = .next read) ∧
     (named → s.engine.nodeState = .pending → ∃ u, exec (.decline t station p) s = .next u ∧
       u.engine.nodeState = (if leaves then .idle else .armed) ∧ u.engine.params = some pass ∧
       (leaves → u.clock.state = .free) ∧
       u.engine.path = s.engine.path ∧ u.sup.latched = s.sup.latched ∧ u.axes = s.axes ∧
       ∀ i : Fin 8, u.cues[i].active = false ∧ u.cues[i].pulseEnd = none) ∧
     (named → s.engine.nodeState = .running → s.defaults → s.engine.halt.rampStart = none →
       (let ramp := s.engine.tick + min 8 (max 2 ((100000 + s.engine.tickDuration - 1) /
          s.engine.tickDuration))
        ∃ u, exec (.decline t station p) s = .next u ∧ u.latchedCause .peerDeclined = true ∧
          (s.sup.origins[3] = none → u.sup.origins[3] = some station.toNat) ∧
          u.engine.nodeState = .running ∧ u.engine.halt.rampStart = some ramp ∧
          u.engine.halt.cause = some ⟨6, s.ownNumber⟩ ∧ u.axes = s.axes ∧
          (s.hasRoom → u.engine.halt.ownHalt = some ramp ∧ ∃ e ∈ u.line.txQueue,
            e.cls = 0 ∧ e.kind = 0 ∧ e.owner = .halt true ∧ e.payload.length = 8 ∧
            fieldAt e.payload 0 3 = pass.startFrame % 2 ^ 24 ∧
            fieldAt e.payload 3 4 = ramp % 2 ^ 32 ∧ byteAt e.payload 7 = 6))))

/-- R14, R44, R105, R120, R121, R187: a HALT naming the node's pass latches REMOTE_HALT. In PENDING the
node is ARMED again. In RUNNING the earliest ramp start is kept, a late one becomes the last tick taken,
and an own HALT it answers is cancelled. That REMOTE_HALT is latched in PENDING (assumption 16), and
that the node is IDLE instead of ARMED when the clock leaves LOCAL with it (assumption 32), are the
model's deductions; that a cause code outside 0 to 17 is recorded as it comes is its choice (assumption
56). -/
def Obligations.HaltTakesTheEarliestRamp : Prop :=
  ∀ (t : Nat) (station : BitVec 5) (p : List Byte) (pass : PassParams) (s : State),
    s.line.state = .receiving → p.length = 8 → s.engine.params = some pass →
    fieldAt p 0 3 ≠ 16777215 →
    (let read := s.received t
     let named := pass.startFrame = fieldAt p 0 3 % 2 ^ 20
     let ramp := fieldAt p 3 4
     let cause : HaltCause := ⟨BitVec.ofNat 8 (byteAt p 7), station.toNat⟩
     let held := s.engine.halt.rampStart
     let leaves := s.clock.state = .coasting ∨
       s.clock.state = .localMarks ∧ read.localHolds = false
     (¬ named ∨ s.engine.nodeState ∉ [NodeState.pending, .running, .halting] →
       exec (.halt t station p) s = .next read) ∧
     (named → s.engine.nodeState = .pending → ∃ u, exec (.halt t station p) s = .next u ∧
       u.latchedCause .remoteHalt = true ∧ u.axes = s.axes ∧
       u.engine.nodeState = (if leaves then .idle else .armed)) ∧
     (named → s.engine.nodeState = .running → ∃ u, exec (.halt t station p) s = .next u ∧
       u.latchedCause .remoteHalt = true ∧ u.engine.nodeState = .running ∧
       u.engine = { s.engine with halt := u.engine.halt } ∧ u.axes = s.axes ∧
       (∀ h, held = some h → h ≤ ramp → u.engine.halt =
         { s.engine.halt with ownHalt := u.engine.halt.ownHalt }) ∧
       ((∀ h, held = some h → ramp < h) → s.engine.tick ≤ ramp → u.engine.halt =
         { s.engine.halt with
           rampStart := some ramp, cause := some cause, ownHalt := u.engine.halt.ownHalt }) ∧
       ((∀ h, held = some h → ramp < h) → ramp < s.engine.tick → u.sup.notes[2] = true ∧
         u.engine.halt = { s.engine.halt with
           rampStart := some s.engine.tick, cause := some cause, late := true
           ownHalt := u.engine.halt.ownHalt }) ∧
       ((∀ o, s.engine.halt.ownHalt = some o → o < ramp) →
         u.line.txQueue = s.line.txQueue ∧ u.engine.halt.ownHalt = s.engine.halt.ownHalt) ∧
       (∀ (o : Nat) (before behind : List TxEntry) (e : TxEntry),
         s.engine.halt.ownHalt = some o → ramp ≤ o →
         s.line.txQueue = before ++ e :: behind → (∀ x ∈ before, x.owner ≠ .halt true) →
         e.owner = .halt true →
         (e.sending = false → u.line.txQueue = before ++ behind ∧
           u.engine.halt.ownHalt = none) ∧
         (e.sending = true →
           u.line.txQueue = before ++ { e with cancelled := true } :: behind))) ∧
     (named → s.engine.nodeState = .halting → ∃ u, exec (.halt t station p) s = .next u ∧
       u.latchedCause .remoteHalt = true ∧ u.engine.nodeState = .halting ∧
       u.engine.halt = { s.engine.halt with late := u.engine.halt.late } ∧
       (u.engine.halt.late = true ↔ s.engine.halt.late = true ∨ ∃ h, held = some h ∧ ramp < h) ∧
       (∀ h, held = some h → ramp < h → u.sup.notes[2] = true) ∧
       (∀ h, held = some h → h ≤ ramp → u.engine = s.engine ∧ u.sup.notes = s.sup.notes) ∧
       u.axes = s.axes ∧ u.line.txQueue = s.line.txQueue))

/-- R44, R122: a generic HALT in every node state. That a PENDING node is IDLE instead of ARMED when the
clock leaves LOCAL with it is the model's deduction (assumption 32). -/
def Obligations.GenericHaltActs : Prop :=
  ∀ (t : Nat) (station : BitVec 5) (p : List Byte) (s : State),
    s.line.state = .receiving → p.length = 8 → fieldAt p 0 3 = 16777215 →
    (let read := s.received t
     let leaves := s.clock.state = .coasting ∨
       s.clock.state = .localMarks ∧ read.localHolds = false
     (s.engine.nodeState ∈ [NodeState.settling, .excluded, .idle, .loading, .halted, .ended,
         .stopped] → exec (.genericHalt t station p) s = .next read) ∧
     (s.engine.nodeState ∈ [NodeState.running, .halting, .pending, .armed, .slewing, .returning] →
       ∃ u, exec (.genericHalt t station p) s = .next u ∧ u.latchedCause .remoteHalt = true ∧
         (s.sup.origins[4] = none → u.sup.origins[4] = some station.toNat) ∧ u.axes = s.axes ∧
         u.store = s.store ∧
         (s.engine.nodeState = .running → s.engine.halt.rampStart = none →
           u.engine.nodeState = .running ∧
           u.engine.halt.rampStart = some (s.engine.tick + haltLead s.engine.tickDuration) ∧
           u.engine.halt.cause = some ⟨8, s.ownNumber⟩) ∧
         (s.engine.nodeState = .running → s.engine.halt.rampStart ≠ none →
           u.engine = s.engine ∧ u.line.txQueue = s.line.txQueue) ∧
         (s.engine.nodeState = .halting → u.engine = s.engine) ∧
         (s.engine.nodeState = .pending →
           u.engine.nodeState = (if leaves then .idle else .armed) ∧ u.engine.path = s.engine.path) ∧
         (s.engine.nodeState = .armed → u.engine.nodeState = .idle ∧
           u.engine.path.onPath = false ∧ u.sup.notes[3] = true) ∧
         (s.engine.nodeState = .slewing ∨ s.engine.nodeState = .returning →
           u.engine = { s.engine with slew := u.engine.slew } ∧
           (∀ kind tPark scale moved decel,
             s.engine.slew = some (.axes kind tPark scale moved decel) →
             u.engine.slew = some (.axes kind tPark scale moved true)) ∧
           (∀ q count decel, s.engine.slew = some (.path q count decel) →
             u.engine.slew = some (.path q count true)))))

/-! ## Loading (chapter 4) -/

/-- R61, R62, R64, R195: in LOADING a setup chunk is written whole, the later one winning, and a
malformed one latches the load-order record; in any other phase every LOAD telegram is a stray. -/
def Obligations.SetupChunksAreKept : Prop :=
  ∀ (t : Nat) (station : BitVec 5) (target : Byte) (body : List Byte) (s : State),
    s.line.state = .receiving →
    (let p := target :: body
     let read := s.received t
     let stores := fun st : MoveStore => ({ read with store := st } : State)
     let malformed := stores { s.store with
       loadOrder := some (s.store.loadOrder.getD { list := .none, index := none }) }
     (∀ chunk ∈ [Instr.axisSetup, .levelSetup, .cueSetup, .keys, .levelKeys, .cues],
       (¬ s.addressed target → exec (chunk t station p) s = .next read) ∧
       (s.addressed target → s.store.phase ≠ .loading →
         exec (chunk t station p) s = .next { read with sup := { s.sup with
           counters := s.sup.counters.set 9 (min 255 (s.sup.counters[9] + 1))
           notes := s.sup.notes.set 5 true } })) ∧
     (s.addressed target → s.store.phase = .loading →
       (∀ a : Fin 4, p.length = 22 → byteAt p 1 = a.val →
         exec (.axisSetup t station p) s = .next (stores { s.store with
           axisSetups := s.store.axisSetups.set a (some
             { scaleClass := byteAt p 2, origin := signedAt p 3 4, softMin := signedAt p 7 3,
               softMax := signedAt p 10 3, slewSpeed := fieldAt p 13 3,
               slewAccel := fieldAt p 16 2, followingLimit := fieldAt p 18 2,
               tolerance := fieldAt p 20 2 }) })) ∧
       (p.length ≠ 22 ∨ 3 < byteAt p 1 → exec (.axisSetup t station p) s = .next malformed) ∧
       (∀ l : Fin 2, p.length = 5 → byteAt p 1 = l.val →
         exec (.levelSetup t station p) s = .next (stores { s.store with
           levelSetups := s.store.levelSetups.set l (some
             { compensation := byteAt p 2, nominal := fieldAt p 3 2 }) })) ∧
       (p.length ≠ 5 ∨ 1 < byteAt p 1 → exec (.levelSetup t station p) s = .next malformed) ∧
       (∀ rest : Byte, body = [rest] →
         exec (.cueSetup t station p) s = .next (stores { s.store with cueSetup := some rest })) ∧
       (p.length ≠ 2 → exec (.cueSetup t station p) s = .next malformed)))

/-- R57, R63, R64, R195: in LOADING a chunk of keys or cues that continues its list within the declared
count is written to the following places; any other latches the load-order record with its own first
index, unless one is latched already. -/
def Obligations.KeysAreWrittenInOrder : Prop :=
  ∀ (t : Nat) (station : BitVec 5) (target : Byte) (body : List Byte) (s : State)
    (h : MoveHeader), s.line.state = .receiving → s.addressed target →
    s.store.phase = .loading → s.store.header = some h →
    (let p := target :: body
     let read := s.received t
     let stores := fun st : MoveStore => ({ read with store := st } : State)
     let faulty := fun list index => stores { s.store with
       loadOrder := some (s.store.loadOrder.getD { list := list, index := index }) }
     let written := fun (c : Instr) (track : Fin 6) (entries : List Slot) =>
       (let x := s.store.nextIndex[track]
        ∀ block, s.store.blockStarts[track] = some block →
        ∃ pool, exec c s = .next (stores { s.store with
            pool := pool, nextIndex := s.store.nextIndex.set track (x + entries.length) }) ∧
          ∀ slot, pool.read slot =
            if block + x ≤ slot ∧ slot < block + x + entries.length then
              entries[slot - (block + x)]?
            else s.store.pool.read slot)
     (let b := byteAt p 1
      let axis : Fin 4 := ⟨b / 64, by have := (p[1]?.getD 0).isLt; simp only [b, byteAt]; omega⟩
      let track : Fin 6 := axis.castLE (by decide)
      let first := fieldAt p 2 2 % 4096
      let x := s.store.nextIndex[track]
      let tan1 := b / 2 % 2 = 1
      let tan2 := b % 2 = 1
      let second := if tan1 then 14 else 10
      let key1 : AxisKey :=
        { time := fieldAt p 4 2, value := signedAt p 6 4, shape := b / 16 % 4
          tangent := if tan1 then some (signedAt p 10 4) else none }
      let key2 : AxisKey :=
        { time := fieldAt p second 2, value := signedAt p (second + 2) 4, shape := b / 4 % 4
          tangent := if tan2 then some (signedAt p (second + 6) 4) else none }
      let one := p.length = second
      let two := p.length = second + (if tan2 then 10 else 6)
      (one → first = x → x + 1 ≤ h.counts[track] →
        written (.keys t station p) track [.axis key1]) ∧
      (two → first = x → x + 2 ≤ h.counts[track] →
        written (.keys t station p) track [.axis key1, .axis key2]) ∧
      (one → first ≠ x ∨ h.counts[track] < x + 1 →
        exec (.keys t station p) s = .next (faulty (.track track) (some first))) ∧
      (two → first ≠ x ∨ h.counts[track] < x + 2 →
        exec (.keys t station p) s = .next (faulty (.track track) (some first))) ∧
      (¬ one → ¬ two → exec (.keys t station p) s = .next (faulty .none none))) ∧
     (∀ l : Fin 2,
       (let track : Fin 6 := l.natAdd 4
        let first := fieldAt p 3 2 % 4096
        let x := s.store.nextIndex[track]
        let n := if p.length = 9 then 1 else 2
        let keys : List Slot :=
          [.level { time := fieldAt p 5 2, value := fieldAt p 7 2, shape := byteAt p 2 / 4 % 4 },
           .level { time := fieldAt p 9 2, value := fieldAt p 11 2, shape := byteAt p 2 % 4 }]
        p.length = 9 ∨ p.length = 13 → byteAt p 1 = l.val →
        (first = x → x + n ≤ h.counts[track] →
          written (.levelKeys t station p) track (keys.take n)) ∧
        (first ≠ x ∨ h.counts[track] < x + n →
          exec (.levelKeys t station p) s = .next (faulty (.track track) (some first))))) ∧
     (p.length ≠ 9 ∧ p.length ≠ 13 ∨ 1 < byteAt p 1 →
       exec (.levelKeys t station p) s = .next (faulty .none none)) ∧
     (let entry := fun i : Nat =>
        ({ frame := fieldAt p i 2, phase := fieldAt p (i + 2) 2,
           lines := BitVec.ofNat 8 (byteAt p (i + 4)), action := byteAt p (i + 5),
           pulse := byteAt p (i + 6) } : CueEntry)
      let n := if p.length = 9 then 1 else 2
      (p.length = 9 ∨ p.length = 16 → byteAt p 1 = s.store.nextCue →
        s.store.nextCue + n ≤ h.cueCount →
        exec (.cues t station p) s = .next (stores { s.store with
          cueList := s.store.cueList ++ [entry 2, entry 9].take n
          nextCue := s.store.nextCue + n })) ∧
      (p.length = 9 ∨ p.length = 16 → byteAt p 1 ≠ s.store.nextCue ∨
          h.cueCount < s.store.nextCue + n →
        exec (.cues t station p) s = .next (faulty .cues (some (byteAt p 1)))) ∧
      (p.length ≠ 9 → p.length ≠ 16 →
        exec (.cues t station p) s = .next (faulty .none none))))

/-- R57 to R60, R65, R194: BEGIN_LOAD begins a load with the header it carries and empties registration,
or is turned away with the store as it was; COMMIT_LOAD in LOADING begins validation. The reply
REFUSED(TRACK_DISABLED) is its head alone by R194; that the first such track, which R58 has it name,
stands beside the telegram as its entry's owner is the model's choice (assumption 19), and so is the
rounding code, NEAREST 0 and CHOP 1 (assumption 44). -/
def Obligations.LoadBegins : Prop :=
  ∀ (s : State) (r : RequestRecord) (rest : List RequestRecord), s.hasRoom →
    (s.hands 6 r rest →
      (let p := r.target :: r.body
       let takes := s.engine.nodeState ∈ [NodeState.idle, .armed, .halted, .ended]
       let counts := fun track : Fin 6 => fieldAt p (9 + 2 * track.val) 2
       let size := fun track : Fin 6 => 4 * ((counts track + 3) / 4)
       let enabled := fun track : Fin 6 => byteAt p 8 / 2 ^ (5 - track.val) % 2 = 1
       let bad := 1 < byteAt p 5 ∨ fieldAt p 6 2 < 1 ∨ 500 < fieldAt p 6 2 ∨ 128 < byteAt p 21
       let strays := fun track : Fin 6 => ¬ enabled track ∧ counts track ≠ 0
       let stray := ∃ track, strays track
       let demand := ((List.finRange 6).map size).sum
       (¬ takes → exec .beginLoad s = .next (s.replied r rest 2 0 [])) ∧
       (takes → bad → exec .beginLoad s = .next (s.replied r rest 4 0 [])) ∧
       (∀ track, takes → ¬ bad → strays track → (∀ before < track, ¬ strays before) →
         exec .beginLoad s = .next (s.repliedFor (.trackReply track) r rest 3 1 [])) ∧
       (takes → ¬ bad → ¬ stray → 4096 < demand →
         exec .beginLoad s = .next (s.replied r rest 3 2 [])) ∧
       (takes → ¬ bad → ¬ stray → demand ≤ 4096 →
         ∃ u h, exec .beginLoad s = .next u ∧ u.engine.nodeState = .loading ∧
           u.engine.params = none ∧ u.engine.passNumber = 0 ∧ u.engine.path.onPath = false ∧
           u.store.phase = .loading ∧ u.store.header = some h ∧
           h.moveId = BitVec.ofNat 32 (fieldAt p 1 4) ∧
           (h.rounding = .chop ↔ byteAt p 5 = 1) ∧ h.refRate = fieldAt p 6 2 ∧
           h.cueCount = byteAt p 21 ∧
           (∀ track : Fin 6, h.counts[track] = counts track ∧
             (h.enables[track] = true ↔ enabled track) ∧ u.store.nextIndex[track] = 0 ∧
             u.store.blockStarts[track] = if counts track = 0 then none else
               some (((List.finRange 6).filter (· < track)).map size).sum) ∧
           (∀ a : Fin 4, u.store.axisSetups[a] = none ∧
             u.axes[a].commanded = s.axes[a].commanded ∧
             u.axes[a].plan = if enabled (a.castLE (by decide)) then s.axes[a].plan else none) ∧
           (∀ l : Fin 2, u.store.levelSetups[l] = none ∧
             (enabled (l.natAdd 4) → u.levels[l].level = s.levels[l].level) ∧
             (¬ enabled (l.natAdd 4) → u.levels[l].level = 0)) ∧
           u.store.cueSetup = none ∧ u.store.cueList = [] ∧ u.store.nextCue = 0 ∧
           u.store.loadOrder = none ∧ u.store.length = none ∧ u.store.pool = s.store.pool ∧
           u.reg.capture.holds = none ∧ u.reg.reference.holds = none ∧
           u.reg.deviations = [] ∧ u.reg.history = [] ∧
           (s.line.txQueue.length < 7 → u.hasReply r 0 0)))) ∧
    (s.hands 7 r rest →
      (s.store.phase = .loading → exec .commitLoad s = .next { s.dispatched rest with
        store := { s.store with
          phase := .validating, commit := some { requester := r.requester, began := s.now } } }) ∧
      (s.store.phase = .empty ∨ s.store.phase = .valid →
        exec .commitLoad s = .next (s.replied r rest 3 3 [])))

/-- R65 to R68, R91, R92: validation ends 40,000 base clocks and 80 for each key and cue after it began.
A load without fault becomes the VALID move, its length the latest key time, and every list whole,
present and in order; one with a fault is discarded and its first fault replied: the first of the eight
checks, within it the first of the lists, and within that the setup before the entries in their order.
The arm conditions are judged with it: the node is ARMED when all six hold and IDLE otherwise. -/
def Obligations.ValidationDecides : Prop :=
  ∀ (s : State) (c : Commit), s.store.phase = .validating → s.store.commit = some c →
    s.engine.nodeState = .loading → s.line.txQueue.length < 7 →
    (let written := s.store.nextIndex[0] + s.store.nextIndex[1] + s.store.nextIndex[2] +
       s.store.nextIndex[3] + s.store.nextIndex[4] + s.store.nextIndex[5] + s.store.nextCue
     let requester := BitVec.ofNat 8 c.requester.toNat
     ∃ u, exec .validationEnd s = .next u ∧ u.now = max s.now (c.began + 40000 + 80 * written) ∧
       u.axes = s.axes ∧ u.reg = s.reg ∧
       (∀ f, s.store.validate = some f ↔ s.store.firstFault f) ∧
       (s.store.validate = none ↔ ∀ check list place f, ¬ FaultOf s.store check list place f) ∧
       (∀ o, s.store.loadOrder = some o →
         s.store.validate = some { error := .loadOrder, list := o.list, index := o.index }) ∧
       (s.store.validate = none → s.store.loadOrder = none ∧ s.store.cueSetup ≠ none ∧
         (∀ track : Fin 6, s.store.countOf track ≤ s.store.nextIndex[track]) ∧
         (∀ track : Fin 6, ((trackSlots s.store track).map Slot.time).IsChain (· < ·)) ∧
         (∀ (a : Fin 4) (x : AxisSetup), s.store.header.map (fun h => h.enables[a.val]) = some true →
           s.store.axisSetups[a] = some x → x.softMin < x.softMax ∧
             ((trackSlots s.store (a.castLE (by decide))).head?.map Slot.time) = some 0) ∧
         (∀ entry ∈ s.store.cueList, entry.time ≤ s.store.moveLength * 65536) ∧
         u.store = { s.store with
           phase := .valid, length := some s.store.moveLength, commit := none } ∧
         (∀ track : Fin 6, ∀ key ∈ trackSlots s.store track, key.time ≤ s.store.moveLength) ∧
         u.engine.passNumber = 0 ∧
         (u.engine.nodeState = .idle ∨ u.engine.nodeState = .armed) ∧
         (u.engine.nodeState = .armed ↔ ({ s with now := u.now, store := u.store } : State).armable) ∧
         (∀ i : Fin 8, u.cues[i] =
           { restHigh := (s.store.cueSetup.getD 0).getLsbD i, active := false, pulseEnd := none }) ∧
         ∃ e ∈ u.line.txQueue, e.cls = 5 ∧ e.kind = 7 ∧ e.payload = [requester, 0, 0]) ∧
       (∀ f, s.store.validate = some f → u.store.phase = .empty ∧ u.store.header = none ∧
         u.store.length = none ∧ u.store.cueList = [] ∧ u.engine.nodeState = .idle ∧
         ∃ e ∈ u.line.txQueue, e.cls = 5 ∧ e.kind = 7 ∧ e.payload =
           [requester, 3, BitVec.ofNat 8 f.error.code, BitVec.ofNat 8 f.list.code,
            BitVec.ofNat 8 (f.index.getD 65535 / 256), BitVec.ofNat 8 (f.index.getD 65535)]))

/-! ## Requests (chapters 6 to 11) -/

/-- R73, R81, R83, R93, R95 to R99, R126: CUE and SEEK take every enabled axis to its target at a move
time, JOG takes one axis to a destination in steps, and RETURN takes T back to 0; each is turned away
where R114 says so. What the evaluation of a CUE or SEEK raises is raised at the taking, and a clamp
decelerates the slew. That a start reads the commanded position as before an edge of its own base clock
is the model's deduction (assumption 45). -/
def Obligations.RigMovesAreTaken : Prop :=
  ∀ (s : State) (r : RequestRecord) (rest : List RequestRecord), s.hasRoom → s.defaults →
    (let p := r.target :: r.body
     let state := s.engine.nodeState
     let valid := s.store.phase = .valid
     let demand := fun (c dest : Int) (speed accel : Nat) =>
       ({ value := c * 256, dest := dest * 256, start := c * 256, velocity := 0,
          speedLimit := speed, accel := accel } : Quantity)
     let slews := fun (u : State) (kind : AxisSlewKind) (time scale : Nat) =>
       u.engine.nodeState = .slewing ∧ u.engine.path.onPath = false ∧ u.axes = s.axes ∧
       u.store = s.store ∧ u.reg = s.reg ∧
       s.raisedBy (s.store.evalAxis time scale) .request 0 u ∧
       ∃ moved decel, u.engine.slew = some (.axes kind time scale moved decel) ∧
         (decel = true ↔ ∃ a ev, s.store.evalAxis time scale a = some ev ∧ ev.clamped = true) ∧
         ∀ a : Fin 4,
           (∀ ev x, s.store.evalAxis time scale a = some ev → s.store.axisSetups[a] = some x →
             moved[a] =
               some (demand (s.axes[a].commandedAt s.now) ev.target x.slewSpeed x.slewAccel)) ∧
           (s.store.axisPlays a = false → moved[a] = none)
     (s.hands 2 r rest →
       (let scale := fieldAt p 1 3
        let takes := state ∈ [NodeState.idle, .armed, .halted, .ended]
        let good := 256 ≤ scale ∧ scale ≤ 65536
        (¬ takes → exec .cue s = .next (s.replied r rest 2 0 [])) ∧
        (takes → ¬ valid → exec .cue s = .next (s.replied r rest 3 13 [])) ∧
        (takes → valid → ¬ good → exec .cue s = .next (s.replied r rest 4 0 [])) ∧
        (takes → valid → good → ∃ u, exec .cue s = .next u ∧ slews u .cue 0 scale ∧
          (s.line.txQueue.length < 7 → u.hasReply r 0 0)))) ∧
     (s.hands 3 r rest →
       (let frame := fieldAt p 1 2
        let scale := fieldAt p 3 3
        let last := s.store.length.getD 0
        let takes := state ∈ [NodeState.idle, .armed, .halted, .ended]
        let good := 256 ≤ scale ∧ scale ≤ 65536
        (¬ takes → exec .seek s = .next (s.replied r rest 2 0 [])) ∧
        (takes → ¬ valid → exec .seek s = .next (s.replied r rest 3 13 [])) ∧
        (takes → valid → ¬ good → exec .seek s = .next (s.replied r rest 4 0 [])) ∧
        (takes → valid → good → ∃ u, exec .seek s = .next u ∧
          slews u .seek (min frame last * 65536) scale ∧
          (s.line.txQueue.length < 7 → u.hasReply r (if last < frame then 1 else 0) 0)))) ∧
     (s.hands 4 r rest →
       (let takes := state ∈ [NodeState.idle, .halted, .ended]
        (¬ takes → exec .jog s = .next (s.replied r rest 2 0 [])) ∧
        (takes → 3 < byteAt p 1 → exec .jog s = .next (s.replied r rest 4 0 [])) ∧
        (∀ a : Fin 4, takes → byteAt p 1 = a.val →
          (let off := valid ∧ s.store.header.map (fun h => h.enables[a.val]) = some false
           let c := s.axes[a].commandedAt s.now
           let range := s.store.softRange a
           let asked := c + signedAt p 2 4
           let dest := max (min range.1 c) (min (max range.2 c) asked)
           (off → exec .jog s = .next (s.replied r rest 3 15 [])) ∧
           (¬ off → ∃ u moved, exec .jog s = .next u ∧ u.engine.nodeState = .slewing ∧
             u.engine.path.onPath = false ∧ u.axes = s.axes ∧
             u.engine.slew = some (.axes .jog 0 s.engine.path.scale moved false) ∧
             (∀ b, b ≠ a → moved[b] = none) ∧
             (∀ x, valid → s.store.axisSetups[a] = some x →
               moved[a] = some (demand c dest x.slewSpeed x.slewAccel)) ∧
             (¬ valid → moved[a] = some (demand c dest 6400 64)) ∧
             (s.line.txQueue.length < 7 →
               u.hasReply r (if dest = asked then 0 else 1) 0)))))) ∧
     (s.hands 5 r rest →
       (let rate := fieldAt p 1 4
        let takes := state = .halted ∨ state = .ended
        let limit := max 1 (min 65536 rate)
        let t := s.engine.path.tPark
        (¬ takes → exec .returnPath s = .next (s.replied r rest 2 0 [])) ∧
        (takes → s.engine.path.onPath = false →
          exec .returnPath s = .next (s.replied r rest 3 14 [])) ∧
        (takes → s.engine.path.onPath = true → ∃ u, exec .returnPath s = .next u ∧
          u.engine.nodeState = .returning ∧ u.engine.moveTime = t ∧
          u.engine.slew = some (.path
            { value := t, dest := 0, start := t, velocity := 0, speedLimit := limit,
              accel := max 1 (limit / 256) } 0 false) ∧
          u.engine.path = s.engine.path ∧ u.axes = s.axes ∧ u.store = s.store ∧
          (s.line.txQueue.length < 7 →
            u.hasReply r (if rate = limit then 0 else 1) 0)))))

/-- R116: SET_DISPOSITION in its four cases, and that the new disposition acts on the next raising. That
HALT_RIG is code 1 and WARN code 2 is the model's choice (assumption 44). -/
def Obligations.DispositionIsSet : Prop :=
  ∀ (s : State) (r : RequestRecord) (rest : List RequestRecord), s.hasRoom → s.hands 9 r rest →
    (let cause := byteAt (r.target :: r.body) 1
     let code := byteAt (r.target :: r.body) 2
     let idle := s.engine.nodeState = .idle
     let fixed := cause ∉ [10, 11, 12, 13, 14, 15]
     (¬ idle → exec .setDisposition s = .next (s.replied r rest 2 0 [])) ∧
     (idle → 17 < cause → exec .setDisposition s = .next (s.replied r rest 4 0 [])) ∧
     (idle → cause ≤ 17 → fixed → exec .setDisposition s = .next (s.replied r rest 3 16 [])) ∧
     (idle → ¬ fixed → code ≠ 1 → code ≠ 2 →
       exec .setDisposition s = .next (s.replied r rest 4 0 [])) ∧
     (∀ c : Cause, idle → ¬ fixed → c.idx.val = cause → code = 1 ∨ code = 2 →
       (let d : Disposition := if code = 1 then .haltRig else .warn
        let done := s.replied r rest 0 0 []
        let u : State := { done with sup := { s.sup with
          dispositions := s.sup.dispositions.set c.idx d } }
        exec .setDisposition s = .next u ∧
        ∀ (v : State) axis station, v.sup.dispositions = u.sup.dispositions →
          v.raise c axis station = if code = 1 then (v.latch c axis station).haltRig c
            else v.latch c axis station)))

/-- R91, R92, R133, R135, R149, R150, R162, R164, R174, R185, R186, R194: the requests that write a
setup, the reference or a level, with each value brought into its range, in the states that take them;
the reply of SET_CHANNEL carries the values as written, and a change of invert turns the DIR output at
once or at the trailing edge of a pulse. That EDGE is 0 and EDGE_LEVEL 1, and LATEST 0 and NONE 1, is
the model's choice (assumption 44). The arm conditions are judged with it: the node is ARMED when all
six hold and IDLE otherwise. -/
def Obligations.SettingsAreWritten : Prop :=
  ∀ (s : State) (r : RequestRecord) (rest : List RequestRecord), s.hasRoom →
    (let p := r.target :: r.body
     let idle := s.engine.nodeState = .idle
     let takes := s.engine.nodeState ∈ [NodeState.idle, .armed, .halted, .ended, .stopped]
     (s.hands 8 r rest → p.length = 9 →
       (¬ idle → exec .setChannelAxis s = .next (s.replied r rest 2 0 [])) ∧
       (idle → 3 < byteAt p 1 ∨ 1 < byteAt p 8 →
         exec .setChannelAxis s = .next (s.replied r rest 4 0 [])) ∧
       (∀ a : Fin 4, idle → byteAt p 1 = a.val → byteAt p 8 ≤ 1 →
         (let setup : ChannelSetup :=
            { pulseWidth := max 25 (min 2500 (fieldAt p 2 2))
              dirSetup := min 5000 (fieldAt p 4 2)
              ratio := min 256 (fieldAt p 6 2)
              invert := byteAt p 8 == 1 }
          let same := setup.pulseWidth = fieldAt p 2 2 ∧ setup.dirSetup = fieldAt p 4 2 ∧
            setup.ratio = fieldAt p 6 2
          let x := s.axes[a]
          let level := x.increasing != setup.invert
          let two := fun n : Nat => [BitVec.ofNat 8 (n / 256), BitVec.ofNat 8 n]
          ∃ u, exec .setChannelAxis s = .next u ∧
            (x.setup.invert = setup.invert → u.axes[a] = { x with setup := setup }) ∧
            (x.setup.invert ≠ setup.invert → u.axes[a] = { x with
              setup := setup, plan := none
              dirHigh := if x.stepHigh then x.dirHigh else level
              lastDirChange := if x.stepHigh = true ∨ x.dirHigh = level then x.lastDirChange
                else some s.now }) ∧
            (∀ b, b ≠ a → u.axes[b] = s.axes[b]) ∧
            u.hasReply r (if same then 0 else 1) 0 ∧
            u = { s.replied r rest (if same then 0 else 1) 0 ([BitVec.ofNat 8 a.val] ++
                two setup.pulseWidth ++ two setup.dirSetup ++ two setup.ratio ++
                [if setup.invert then 1 else 0]) with axes := u.axes }))) ∧
     (s.hands 8 r rest → p.length = 12 →
       (let bad := byteAt p 1 ≠ 4 ∨ ∃ i ∈ [6, 7, 8, 9, 10, 11], 1 < byteAt p i
        let sens := fun i => if byteAt p i = 0 then Sensitivity.edge else .edgeLevel
        (¬ idle → exec .setChannelStation s = .next (s.replied r rest 2 0 [])) ∧
        (idle → bad → exec .setChannelStation s = .next (s.replied r rest 4 0 [])) ∧
        (idle → ¬ bad → ∃ u, exec .setChannelStation s = .next u ∧
          u.sup.setup =
            { undervoltage := min 1023 (fieldAt p 2 2), temperature := min 1023 (fieldAt p 4 2),
              limitSens := sens 6, driveSens := sens 7, pullLimit := byteAt p 8 == 1,
              pullDrive := byteAt p 9 == 1, pullEstop := byteAt p 10 == 1,
              pullEncoder := byteAt p 11 == 1 } ∧
          (let resensed := fun (old new : Sensitivity) (i : ProtectionInput) =>
             ({ low := i.low
                latch := if old = new then i.latch else if new = .edgeLevel then false
                  else i.latch || i.low } : ProtectionInput)
           ∀ a : Fin 4,
             u.sup.drive[a] = resensed s.sup.setup.driveSens (sens 7) s.sup.drive[a] ∧
             ∀ side, u.sup.limit a side =
               resensed s.sup.setup.limitSens (sens 6) (s.sup.limit a side)) ∧
          u.sup.estopLow = s.sup.estopLow ∧ u.sup.latched = s.sup.latched ∧
          u.sup.supply = s.sup.supply ∧
          (u.engine.nodeState = .idle ∨ u.engine.nodeState = .armed) ∧ u.axes = s.axes ∧
          (u.engine.nodeState = .armed ↔ ({ s with sup := u.sup } : State).armable) ∧
          (s.line.txQueue.length < 7 →
            (let code : Byte := if fieldAt p 2 2 ≤ 1023 ∧ fieldAt p 4 2 ≤ 1023 then 0 else 1
             let u1 := min 1023 (fieldAt p 2 2)
             let h1 := min 1023 (fieldAt p 4 2)
             ∃ e ∈ u.line.txQueue, e.cls = 5 ∧ e.kind = r.kind ∧ e.owner = .reply ∧ e.payload =
               [BitVec.ofNat 8 r.requester.toNat, code, 0, 4, BitVec.ofNat 8 (u1 / 256),
                BitVec.ofNat 8 u1, BitVec.ofNat 8 (h1 / 256), BitVec.ofNat 8 h1] ++
                 p.drop 6))))) ∧
     (s.hands 10 r rest →
       (let newest := s.reg.history.getLast?.map Summary.passNumber
        let already := ∃ d, s.reg.reference.holds = some d ∧ newest = some d.passNumber
        let ready := ∃ d, s.reg.capture.holds = some d ∧ newest = some d.passNumber ∧
          d.ending = .ended ∧ 0 < d.framesRecorded
        let selector := byteAt p 1
        (¬ takes → exec .setReference s = .next (s.replied r rest 2 0 [])) ∧
        (takes → 1 < selector → exec .setReference s = .next (s.replied r rest 4 0 [])) ∧
        (takes → selector = 1 → ∃ u, exec .setReference s = .next u ∧
          u.reg.reference.holds = none ∧ u.reg.capture = s.reg.capture ∧
          u.reg.history = s.reg.history ∧
          u = { s.replied r rest 0 0 [] with reg := u.reg }) ∧
        (takes → selector = 0 → already →
          exec .setReference s = .next (s.replied r rest 0 0 [])) ∧
        (takes → selector = 0 → ¬ already → ready → ∃ u, exec .setReference s = .next u ∧
          u.reg.reference = s.reg.capture ∧ u.reg.capture.holds = none ∧
          u.reg.history.getLast?.map Summary.becameReference = some true ∧
          u = { s.replied r rest 0 0 [] with reg := u.reg }) ∧
        (takes → selector = 0 → ¬ already → ¬ ready →
          exec .setReference s = .next (s.replied r rest 3 18 [])))) ∧
     (s.hands 13 r rest →
       (let asked := fieldAt p 2 2
        (¬ takes → exec .setLevel s = .next (s.replied r rest 2 0 [])) ∧
        (takes → 1 < byteAt p 1 → exec .setLevel s = .next (s.replied r rest 4 0 [])) ∧
        (∀ l : Fin 2, takes → byteAt p 1 = l.val →
          (let off := s.store.phase ≠ .empty ∧
             s.store.header.map (fun h => h.enables[l.val + 4]) = some false
           (off → exec .setLevel s = .next (s.replied r rest 3 19 [])) ∧
           (¬ off → ∃ u, exec .setLevel s = .next u ∧ u.levels[l].level = min 1023 asked ∧
             u.levels[l].source = .set ∧ u.levels[l].activeDuty = s.levels[l].activeDuty ∧
             (s.store.phase = .empty → u.levels[l].pendingDuty = min 1023 asked) ∧
             (∀ k, k ≠ l → u.levels[k] = s.levels[k]) ∧
             u = { s.replied r rest (if asked ≤ 1023 then 0 else 1) 0
                 [BitVec.ofNat 8 l.val, BitVec.ofNat 8 (min 1023 asked / 256),
                  BitVec.ofNat 8 (min 1023 asked),
                  BitVec.ofNat 8 (u.levels[l].pendingDuty / 256),
                  BitVec.ofNat 8 u.levels[l].pendingDuty] with levels := u.levels }))))))

/-- R165, R166, R189, R192, R194, R196: STATUS, READ_PASS and READ_DEVIATIONS reply with what they read,
laid out byte by byte, and change nothing but, with the clear option, the items of the part read that it
clears. The model's are the bytes of an empty exception record (assumption 21), the order of the twelve
limit and drive inputs (assumption 22), the order of the axes in a set (assumption 25), that a running
pass's cause and late are the halt record's (assumption 42), that a recorded cause code outside 0 to 17
is sent as it came (assumption 56), and the numbers of the codes that R194 and R196 list in parentheses
(assumption 44). -/
def Obligations.ReadsReply : Prop :=
  ∀ (s : State) (r : RequestRecord) (rest : List RequestRecord), s.hasRoom →
    (let p := r.target :: r.body
     let byte := fun n : Nat => BitVec.ofNat 8 n
     let two := fun n : Nat => [byte (n / 256), byte n]
     let three := fun n : Nat => [byte (n / 256 ^ 2), byte (n / 256), byte n]
     let four := fun n : Nat => [byte (n / 256 ^ 3), byte (n / 256 ^ 2), byte (n / 256), byte n]
     let signed := fun d : Int => [BitVec.ofInt 8 (d / 256 ^ 3), BitVec.ofInt 8 (d / 256 ^ 2),
       BitVec.ofInt 8 (d / 256), BitVec.ofInt 8 d]
     ([ResetCause.none, .powerOn, .pin, .stationReset].map ResetCause.code = [0, 1, 2, 3] ∧
       [LevelSource.none, .evaluated, .set, .disabled].map LevelSource.code = [0, 1, 2, 3] ∧
       [ExceptionCode.overflowEval, .overflowScale].map ExceptionCode.code = [0, 1] ∧
       [Occasion.pass, .slew, .request].map Occasion.code = [0, 1, 2] ∧
       [PassEnding.inProgress, .ended, .halted, .stopped].map PassEnding.code = [0, 1, 2, 3] ∧
       [Verdict.none, .registered, .marginal, .failed, .unchecked, .incomplete].map Verdict.code =
         [0, 1, 2, 3, 4, 5] ∧
       [Grade.over, .gross].map Grade.code = [0, 1]) ∧
     (s.hands 0 r rest →
       (4 < byteAt p 1 ∨ 1 < byteAt p 2 → exec .status s = .next (s.replied r rest 4 0 [])) ∧
       (∀ part, StatusPart.ofCode (byteAt p 1) = some part → part ≠ .exception →
         byteAt p 2 = 0 → exec .status s = .next (s.replied r rest 0 0 (s.partContent part))) ∧
       (byteAt p 1 = 3 → byteAt p 2 ≤ 1 → ∃ u content, exec .status s = .next u ∧
         u = { s.replied r rest 0 0 content with sup := u.sup, free := u.free } ∧
         content.length = 11 ∧
         (∀ x, s.sup.exception = some x → content.take 10 =
           [1, byte x.code.code, byte x.track.val] ++ two x.keyIndex ++ [byte x.occasion.code] ++
             four x.tick) ∧
         (s.sup.exception = none → content.head? = some 0) ∧
         content.getLast? = some (byte s.sup.exceptionCount) ∧
         (byteAt p 2 = 0 → u.sup = s.sup) ∧
         (byteAt p 2 = 1 → u.sup = { s.sup with exception := none, exceptionCount := 0 })) ∧
       (byteAt p 1 = 1 → byteAt p 2 ≤ 1 → ∃ u, exec .status s = .next u ∧
         u = { s.replied r rest 0 0
             (s.sup.counters.toList.map byte ++ [byte s.roster.beyondCount]) with sup := u.sup } ∧
         u.sup = { s.sup with counters := u.sup.counters } ∧
         (byteAt p 2 = 0 → u.sup = s.sup) ∧
         (byteAt p 2 = 1 → ∀ k : Fin 11, u.sup.counters[k] = 0)) ∧
       (byteAt p 1 = 2 → byteAt p 2 ≤ 1 → ∃ u content, exec .status s = .next u ∧
         u = { s.replied r rest 0 0 content with axes := u.axes } ∧ content.length = 20 ∧
         (∀ a : Fin 4, content[2 * a.val]? = some (byte s.axes[a].deficitTicks) ∧
           content[2 * a.val + 1]? = some (byte s.axes[a].encoderErrors)) ∧
         (∀ l : Fin 2, (content.drop (8 + 5 * l.val)).take 5 =
           two s.levels[l].level ++ [byte s.levels[l].source.code] ++
             two s.levels[l].activeDuty) ∧
         (∀ i : Fin 8, bitOf (byteAt content 18) i.val = s.cues[i].active ∧
           bitOf (byteAt content 19) i.val = s.cues[i].restHigh) ∧
         (byteAt p 2 = 0 → u.axes = s.axes) ∧
         (byteAt p 2 = 1 → ∀ a : Fin 4,
           u.axes[a] = { s.axes[a] with deficitTicks := 0, encoderErrors := 0 })) ∧
       (byteAt p 1 = 4 → byteAt p 2 ≤ 1 → ∃ content,
         exec .status s = .next (s.replied r rest 0 0 content) ∧ content.length = 18 ∧
         (s.sup.readings = none → content.take 12 = List.replicate 12 255) ∧
         (∀ x, s.sup.readings = some x → content.take 12 =
           two x.lampA.toNat ++ two x.lampB.toNat ++ two x.rigSupply.toNat ++ two x.temp.toNat ++
             two x.refHigh.toNat ++ two x.refLow.toNat) ∧
         (let setup := s.sup.setup
          content.drop 12 = two setup.undervoltage ++ two setup.temperature ++
            [byte ((if setup.limitSens = .edge then 2 else 0) +
               if setup.driveSens = .edge then 1 else 0),
             byte (8 * setup.pullLimit.toNat + 4 * setup.pullDrive.toNat +
               2 * setup.pullEstop.toNat + setup.pullEncoder.toNat)])) ∧
       (byteAt p 1 = 0 → byteAt p 2 ≤ 1 → ∃ u content, exec .status s = .next u ∧
         u = { s.replied r rest 0 0 content with sup := u.sup } ∧ content.length = 18 ∧
         content.head? = some (byte s.sup.resetCause.code) ∧
         (∀ c : Fin 18, bitOf (fieldAt content 1 3) (23 - c.val) = s.sup.latched[c]) ∧
         (∀ n : Fin 6, bitOf (fieldAt content 1 3) (5 - n.val) = s.sup.notes[n]) ∧
         (∀ k : Fin 6, bitsOf (fieldAt content 4 3) (23 - 4 * k.val) (20 - 4 * k.val) =
           s.sup.axisSets[k].toNat) ∧
         (∀ k : Fin 5, content[7 + k.val]? = some (byte (s.sup.origins[k].getD 31))) ∧
         (let inputs := fieldAt content 12 4
          (∀ a : Fin 4,
            bitOf inputs (31 - 2 * a.val) = s.sup.limitMin[a].low ∧
            bitOf inputs (30 - 2 * a.val) = s.sup.limitMax[a].low ∧
            bitOf inputs (23 - a.val) = s.sup.drive[a].low ∧
            bitOf inputs (18 - 2 * a.val) = s.sup.limitMin[a].latch ∧
            bitOf inputs (17 - 2 * a.val) = s.sup.limitMax[a].latch ∧
            bitOf inputs (10 - a.val) = s.sup.drive[a].latch) ∧
          bitOf inputs 19 = s.sup.estopLow ∧ inputs % 2 ^ 7 = 0) ∧
         (let live := fieldAt content 16 2
          bitOf live 15 = s.sup.supply.live ∧ bitOf live 14 = s.sup.temp.live ∧
          bitOf live 13 = s.sup.adcFault ∧ bitOf live 12 = s.line.txOff ∧
          bitOf live 11 = s.line.lineStuck ∧ bitOf live 10 = s.clock.rangeHigh ∧
          bitOf live 9 = s.clock.rangeLow ∧
          bitOf live 8 = (s.levels[0].supplyLow || s.levels[1].supplyLow) ∧
          bitOf live 7 = (s.levels[0].clamped || s.levels[1].clamped) ∧
          bitOf live 6 = s.roster.mismatch ∧
          (∀ l : Fin 2, bitOf live (5 - l.val) = s.levels[l].supplyLow ∧
            bitOf live (3 - l.val) = s.levels[l].clamped) ∧ live % 4 = 0) ∧
         (byteAt p 2 = 0 → u.sup = s.sup) ∧
         (byteAt p 2 = 1 →
           (∀ c : Fin 18, u.sup.latched[c] = false) ∧ (∀ n : Fin 6, u.sup.notes[n] = false) ∧
           (∀ k : Fin 6, u.sup.axisSets[k] = 0) ∧ (∀ k : Fin 5, u.sup.origins[k] = none) ∧
           u.sup = { s.sup with
             resetCause := .none, latched := u.sup.latched, notes := u.sup.notes
             axisSets := u.sup.axisSets, origins := u.sup.origins }))) ∧
     (s.hands 11 r rest →
       (let n := fieldAt p 2 2
        let part := byteAt p 1
        let done := fun content => exec .readPass s = .next (s.replied r rest 0 0 content)
        let unavailable := exec .readPass s = .next (s.replied r rest 3 18 [])
        let captured := (s.reg.capture.holds.map PassDescriptor.framesRecorded).getD 0
        let live := fun (x : Summary) (now held : Nat) =>
          if x.ending = .inProgress then now else held
        let maximum := fun (x : Summary) (a : Fin 4) =>
          (let m := if x.ending = .inProgress then s.reg.maxima[a] else x.maxima[a]
           four m.value ++ two (m.frame.getD 65535))
        let source := fun c : Option CaptureSource =>
          if c = some .encoder then 0 else if c = some .commanded then 1 else 3
        let frame := fun (b : CaptureBuffer) (d : PassDescriptor) =>
          (let row := (b.frames.read n).getD (Vector.ofFn fun _ => none)
           two d.passNumber ++ two n ++
             [byte (row[0].isSome.toNat + 2 * row[1].isSome.toNat + 4 * row[2].isSome.toNat +
               8 * row[3].isSome.toNat)] ++
             signed (row[0].getD 0) ++ signed (row[1].getD 0) ++ signed (row[2].getD 0) ++
             signed (row[3].getD 0))
        (5 < part ∨ part ≤ 2 ∧ 7 < n ∨ (part = 4 ∨ part = 5) ∧ 8191 < n →
          exec .readPass s = .next (s.replied r rest 4 0 [])) ∧
        (part ≤ 2 → s.reg.history.length ≤ n → n ≤ 7 → unavailable) ∧
        (part = 4 → (∀ d, s.reg.capture.holds = some d → d.framesRecorded ≤ n) → n ≤ 8191 →
          unavailable) ∧
        (part = 5 → (∀ d, s.reg.reference.holds = some d → d.framesRecorded ≤ n) → n ≤ 8191 →
          unavailable) ∧
        (∀ x, part = 0 → n ≤ 7 → s.reg.history.reverse[n]? = some x → done
          (two x.passNumber ++
           three (2 ^ 23 * x.comparable.toNat +
             2 ^ 22 * (live x s.engine.halt.late.toNat x.late.toNat) +
             2 ^ 21 * x.becameReference.toNat + x.startFrame % 2 ^ 20) ++
           two x.rate ++
           three (2 ^ 21 * x.verdict.code + 2 ^ 19 * x.ending.code + x.scale % 2 ^ 17) ++
           four (live x (s.reg.openFrame.getD 0 + 1) x.framesRun) ++
           two (live x captured x.framesRecorded) ++
           (((if x.ending = .inProgress then s.engine.halt.cause else x.cause).map fun c =>
             [c.code, byte c.station]).getD [255, 31]) ++
           [byte (live x s.reg.deviations.length x.entryCount)] ++
           two (live x s.reg.overflow x.overflow))) ∧
        (∀ x, part = 1 → n ≤ 7 → s.reg.history.reverse[n]? = some x →
          done (two x.passNumber ++ maximum x 0 ++ maximum x 1)) ∧
        (∀ x, part = 2 → n ≤ 7 → s.reg.history.reverse[n]? = some x →
          done (two x.passNumber ++ maximum x 2 ++ maximum x 3)) ∧
        (part = 3 → s.reg.reference.holds = none → done (List.replicate 11 0)) ∧
        (∀ d, part = 3 → s.reg.reference.holds = some d → done
          ([byte 1] ++ two d.passNumber ++ two d.rate ++ three d.scale ++ two d.framesRecorded ++
            [byte (64 * source d.sources[0] + 16 * source d.sources[1] +
              4 * source d.sources[2] + source d.sources[3])])) ∧
        (∀ d, part = 4 → s.reg.capture.holds = some d → n < d.framesRecorded → n ≤ 8191 →
          done (frame s.reg.capture d)) ∧
        (∀ d, part = 5 → s.reg.reference.holds = some d → n < d.framesRecorded → n ≤ 8191 →
          done (frame s.reg.reference d)) ∧
        (∀ named content, PassPart.ofCode part = some named →
          (named ≠ .reference → n ≤ if part ≤ 2 then 7 else 8191) →
          s.reg.passContent s.engine.halt n named = some content → done content))) ∧
     (s.hands 12 r rest →
       (let first := byteAt p 1
        let entry := fun e : DeviationEntry =>
          two e.frame ++ [byte (e.grade.code * 128 + e.axis.val)] ++
            signed (max (-2147483647) (min 2147483647 e.deviation))
        let counts := two s.reg.listPass ++ [byte s.reg.deviations.length] ++
          two s.reg.overflow ++ [byte first]
        (63 < first → exec .readDeviations s = .next (s.replied r rest 4 0 [])) ∧
        (first ≤ 63 → exec .readDeviations s = .next (s.replied r rest 0 0
          (counts ++ ((s.reg.deviations.drop first).take 2).flatMap entry))))))

/-- R15, R17, R26, R27, R91, R92, R114, R130, R191: CLEAR_FAULT leaves STOPPED when no stop input is
active and clears TX_OFF and the latches of inactive inputs; STATION_RESET clears supervision and goes
to IDLE; ROSTER_REOPEN to 31 queues the reply whose leaving reopens the roster. In EXCLUDED each acts
without a reply: STATION_RESET empties both queues at once and the node stays EXCLUDED, and
ROSTER_REOPEN reopens the roster at once with the resume state kept. That the emptying spares
STATION_RESET replies is the model's choice there (assumption 37). The arm conditions are judged with
it: the node is ARMED when all six hold and IDLE otherwise. -/
def Obligations.RecoveryRequestsAct : Prop :=
  ∀ (s : State) (r : RequestRecord) (rest : List RequestRecord),
    (let state := s.engine.nodeState
     let resets := state ∈ [NodeState.idle, .halted, .ended, .stopped]
     (s.hasRoom → s.line.txQueue.length < 6 →
      ((s.hands 1 r rest →
        (let active := s.sup.estopLow = true ∨ ∃ a : Fin 4, s.sup.drive[a].low = true
         ∃ u, exec .clearFault s = .next u ∧ u.line.txOff = false ∧ u.line.clashRun = 0 ∧
           u.axes = s.axes ∧ u.store = s.store ∧
           (let cleared := fun i : ProtectionInput => ({ i with latch := i.latch && i.low } : ProtectionInput)
            u.sup = { s.sup with
              limitMin := s.sup.limitMin.map cleared, limitMax := s.sup.limitMax.map cleared
              drive := s.sup.drive.map cleared }) ∧
           (let judged : State := { s with sup := u.sup, line := { s.line with txOff := false } }
            (state = .idle ∨ state = .armed ∨ state = .stopped ∧ ¬ active →
              (u.engine.nodeState = .idle ∨ u.engine.nodeState = .armed) ∧
              (u.engine.nodeState = .armed ↔ judged.armable))) ∧
           (state = .stopped → active → u.engine = s.engine ∧ u.hasReply r 3 17) ∧
           (state = .stopped → ¬ active → u.hasReply r 0 0 ∧
             (u.engine.nodeState = .idle ∨ u.engine.nodeState = .armed) ∧
             (s.engine.path.onPath = false → u.engine.nodeState = .idle)) ∧
           (state ≠ .stopped → u.hasReply r 0 0))) ∧
      (s.hands 14 r rest →
        (¬ resets → exec .stationReset s = .next (s.replied r rest 2 0 [])) ∧
        (resets → ∃ u, exec .stationReset s = .next u ∧
          (u.engine.nodeState = .idle ∨ u.engine.nodeState = .armed) ∧ u.engine.slew = none ∧
          (u.engine.nodeState = .armed ↔ s.armable) ∧ u.engine.reportStart = s.now ∧ u.hasReply r 0 0 ∧
          (∀ c : Fin 18, u.sup.latched[c] = false) ∧ (∀ k : Fin 11, u.sup.counters[k] = 0) ∧
          u.sup.exception = none ∧ u.sup.exceptionCount = 0 ∧ u.sup.resetCause = .stationReset ∧
          u.sup.dispositions = s.sup.dispositions ∧ u.sup.setup = s.sup.setup ∧
          u.sup.readings = s.sup.readings ∧ u.sup.drive = s.sup.drive ∧
          u.sup.limitMin = s.sup.limitMin ∧ u.sup.limitMax = s.sup.limitMax ∧
          u.sup.estopLow = s.sup.estopLow ∧ u.sup.supply = s.sup.supply ∧
          (∀ a : Fin 4, u.axes[a] = { s.axes[a] with deficitTicks := 0, encoderErrors := 0 }) ∧
          (∀ i : Fin 8, s.cues[i].pulseEnd ≠ none → u.cues[i].active = false) ∧
          u.store = s.store ∧ u.reg = s.reg ∧ u.levels = s.levels ∧
          u.engine.path = s.engine.path ∧ u.engine.passNumber = s.engine.passNumber ∧
          u.engine.holdTargets = s.engine.holdTargets ∧
          u.clock.roll = s.clock.roll ∧
          (s.line.txOff = false → u.line.requestQueue = rest ∧ u.roster = s.roster ∧
            u.engine.halt = s.engine.halt ∧
            ∃ e ∈ u.line.txQueue, e.owner = .stationResetReply true))) ∧
      (s.hands 15 r rest →
        (¬ resets → exec .rosterReopen s = .next (s.replied r rest 2 0 [])) ∧
        (resets → r.target ≠ 31 → exec .rosterReopen s = .next (s.replied r rest 3 20 [])) ∧
        (resets → r.target = 31 → s.line.txOff = false → ∃ u, exec .rosterReopen s = .next u ∧
          u = { s.dispatched rest with
            line := { s.line with requestQueue := rest, txQueue := u.line.txQueue }
            roster := { s.roster with resume := state } } ∧
          u.hasReply r 0 0 ∧ ∃ e ∈ u.line.txQueue, e.owner = .rosterReopenReply) ∧
        (resets → r.target = 31 → s.line.txOff = true → ∃ u, exec .rosterReopen s = .next u ∧
          u.engine.nodeState = .settling ∧ u.roster.phase = .settling ∧
          u.roster.resume = state ∧ u.axes = s.axes)))) ∧
     (state = .excluded →
      (s.hands 1 r rest → ∃ u, exec .clearFault s = .next u ∧
        u = { s.dispatched rest with
          line := { s.line with requestQueue := rest, txOff := false, clashRun := 0 }
          sup := u.sup } ∧
        u.sup.latched = s.sup.latched ∧ u.sup.counters = s.sup.counters ∧
        ∀ a : Fin 4, u.sup.drive[a].latch = (s.sup.drive[a].latch && s.sup.drive[a].low)) ∧
      (s.hands 14 r rest → ∃ u, exec .stationReset s = .next u ∧
        u.engine.nodeState = .excluded ∧ u.engine.slew = none ∧ u.engine.reportStart = s.now ∧
        (∀ c : Fin 18, u.sup.latched[c] = false) ∧ (∀ n : Fin 6, u.sup.notes[n] = false) ∧
        (∀ k : Fin 11, u.sup.counters[k] = 0) ∧ u.sup.exception = none ∧
        u.sup.resetCause = .stationReset ∧ u.sup.dispositions = s.sup.dispositions ∧
        (∀ a : Fin 4, u.axes[a] = { s.axes[a] with deficitTicks := 0, encoderErrors := 0 }) ∧
        u.line.requestQueue = [] ∧ u.line.txOff = s.line.txOff ∧
        (∀ e ∈ u.line.txQueue, e.sending = true ∨ e.isResetReply = true) ∧
        u.clock = s.clock ∧ u.store = s.store ∧ u.reg = s.reg ∧ u.levels = s.levels) ∧
      (s.hands 15 r rest →
        (r.target ≠ 31 → exec .rosterReopen s = .next (s.dispatched rest)) ∧
        (r.target = 31 → ∃ u, exec .rosterReopen s = .next u ∧
          u.engine.nodeState = .settling ∧ u.roster.phase = .settling ∧
          u.roster.station = none ∧ u.roster.mismatch = false ∧
          u.roster.resume = s.roster.resume ∧ u.line.requestQueue = [] ∧
          u.roster.table.map (fun e => (e.serial, e.rank, e.participant)) =
            [(s.serial, 1, s.participant)] ∧
          (∀ e ∈ u.line.txQueue, e.sending = true) ∧ u.axes = s.axes ∧ u.reg = s.reg))))

/-! ## Pulses, encoders, inputs and the scan (chapters 8 to 11) -/

/-- R91, R92, R133, R138, R144, R145: a leading edge comes when it is planned, or later to keep both
spacings and to follow the last pulse, and counts one step; the trailing edge comes one pulse width
later; an encoder counts by the cycle of its inputs; a read at the base clock of an edge or a change
gives the value before it; the following error is the commanded position less the floored encoder
position; with ratio 0 there is no check and captures take the commanded position. That a late leading
edge may come one base clock after the trailing edge (assumption 47), that the uncounted first sample is
the one at base clock 0 (assumption 46), and that a DIR change due at the trailing edge is made there
also after a STOP_NOW, where R143 has the DIR output keep its level (assumption 41), are the model's
choices. A leading edge has the arm conditions judged in IDLE and ARMED. -/
def Obligations.PulsesAndEncodersCount : Prop :=
  ∀ (s : State) (a : Fin 4),
    (let x := s.axes[a]
     (∀ plan : Plan, x.plan = some plan → x.stepHigh = false →
       (let planned := plan.first + plan.emitted * plan.interval + min plan.emitted plan.extra
        ∃ d u, exec (.stepLeadingEdge a) s = .next u ∧ u.now = max s.now d ∧ planned ≤ d ∧
          (∀ e, x.lastEdge = some e → e + max 100 (2 * plan.pulseWidth) ≤ d) ∧
          (∀ e, x.lastDirChange = some e → e + plan.dirSetup ≤ d) ∧
          (∀ e, x.trailing = some e → e < d) ∧
          (d = planned ∨ (∃ e, x.lastEdge = some e ∧ d = e + max 100 (2 * plan.pulseWidth)) ∨
            (∃ e, x.lastDirChange = some e ∧ d = e + plan.dirSetup) ∨
            ∃ e, x.trailing = some e ∧ d = e + 1) ∧
          u.axes[a] = { x with
            commanded := if x.increasing then x.commanded + 1 else x.commanded - 1
            commandedBefore := x.commanded
            stepHigh := true, trailing := some (d + plan.pulseWidth), lastEdge := some d
            plan := if plan.emitted + 1 < plan.total then
                some { plan with emitted := plan.emitted + 1 } else none } ∧
          (∀ b, b ≠ a → u.axes[b] = s.axes[b]) ∧ u.store = s.store ∧ u.reg = s.reg ∧
          u.levels = s.levels ∧
          (s.engine.nodeState = .idle ∨ s.engine.nodeState = .armed →
            u.engine.path = s.engine.path ∧ (u.engine.nodeState = .idle ∨ u.engine.nodeState = .armed) ∧
            (u.engine.nodeState = .armed ↔
              ({ s with now := u.now, axes := u.axes } : State).armable)) ∧
          (s.engine.nodeState ∉ [NodeState.idle, .armed, .pending] →
            u = { s with now := u.now, axes := u.axes }))) ∧
     (∀ d, x.stepHigh = true → x.trailing = some d → ∃ u, exec (.stepTrailingEdge a) s = .next u ∧
       u = { s with now := max s.now d, axes := u.axes } ∧
       u.axes[a] = { x with
         stepHigh := false, dirHigh := x.increasing != x.setup.invert
         lastDirChange := if x.dirHigh = (x.increasing != x.setup.invert) then x.lastDirChange
           else some d } ∧
       ∀ b, b ≠ a → u.axes[b] = s.axes[b]) ∧
     (∀ (t : Nat) (new : Bool × Bool),
       (let cycle := [(false, false), (true, false), (true, true), (false, true)]
        let forward := fun p q : Bool × Bool =>
          ∃ i : Fin 4, cycle[i.val]? = some p ∧ cycle[(i.val + 1) % 4]? = some q
        let sense : BitVec 32 := if x.setup.invert then -1 else 1
        let old := x.encoderInputs
        let now := max s.now t
        let counted := { x with
          encoderBefore := x.encoderAt now, encoderChanged := some now, encoderInputs := new }
        ∃ u, exec (.encoderChange t a new.1 new.2) s = .next u ∧
          u = { s with now := now, axes := u.axes } ∧
          (∀ b, b ≠ a → u.axes[b] = s.axes[b]) ∧
          (now = 0 → u.axes[a] = { x with encoderInputs := new }) ∧
          (old = new → u.axes[a] = x) ∧
          (0 < now → forward old new → u.axes[a] = { counted with encoder := x.encoder + sense }) ∧
          (0 < now → forward new old → u.axes[a] = { counted with encoder := x.encoder - sense }) ∧
          (0 < now → old.1 ≠ new.1 → old.2 ≠ new.2 → u.axes[a] =
            { x with encoderErrors := min 255 (x.encoderErrors + 1), encoderInputs := new }))) ∧
     (∀ now,
       (x.lastEdge = some now → x.commandedAt now = x.commandedBefore.toInt) ∧
       (x.lastEdge ≠ some now → x.commandedAt now = x.commanded.toInt) ∧
       (x.encoderChanged = some now → x.encoderAt now = x.encoderBefore) ∧
       (x.encoderChanged ≠ some now → x.encoderAt now = x.encoder) ∧
       (1 ≤ x.setup.ratio →
         x.encoderSteps now * x.setup.ratio ≤ (x.encoderAt now).toInt ∧
         (x.encoderAt now).toInt < (x.encoderSteps now + 1) * x.setup.ratio ∧
         x.followingError now = x.commandedAt now - x.encoderSteps now)) ∧
     (x.setup.ratio = 0 → s.followingCheck a = s ∧ x.captureSource = .commanded))

/-- R69, R91, R92, R101, R104, R117, R119, R128, R141 to R143, R184, R187: what each edge of a
protection input does. A falling edge latches its cause, takes the forbidden pulses, and brings its
disposition in every node state: STOP_NOW for ESTOP and DRIVE_FAULT, HALT_RIG for LIMIT_SWITCH; a rising
edge ends the level and leaves the latch. That the HALT of a STOP_NOW in a pass leaves the ramp start
absent is the model's deduction (assumption 18), and that an own number absent is 31 its choice
(assumption 12). A rising edge of a limit input has the arm conditions judged in IDLE and ARMED. -/
def Obligations.ProtectionInputsAct : Prop :=
  ∀ (t : Nat) (a : Fin 4) (s : State), s.defaults →
    (let state := s.engine.nodeState
     let room := s.line.txQueue.length < 6
     let ramp := s.engine.tick + min 8 (max 2 ((100000 + s.engine.tickDuration - 1) /
       s.engine.tickDuration))
     let edge := fun (sens : Sensitivity) (i : ProtectionInput) =>
       ({ low := true, latch := i.latch || sens == .edge } : ProtectionInput)
     let halts := fun (q : List TxEntry) => q.filter fun e => e.cls == 0
     let offersHalt := fun (u : State) (f at' code : Nat) =>
       (halts u.line.txQueue).length = (halts s.line.txQueue).length + 1 ∧
       ∃ e ∈ u.line.txQueue, e.cls = 0 ∧ e.kind = 0 ∧ e.payload.length = 8 ∧
         fieldAt e.payload 0 3 = f % 2 ^ 24 ∧ fieldAt e.payload 3 4 = at' % 2 ^ 32 ∧
         byteAt e.payload 7 = code
     let offersDecline := fun u : State => ∃ e ∈ u.line.txQueue, e.cls = 1 ∧ e.kind = 1 ∧
       e.payload.length = 4 ∧ fieldAt e.payload 0 3 = s.passStart % 2 ^ 24 ∧ byteAt e.payload 3 = 0
     let reports := fun u : State => ∃ e ∈ u.line.txQueue, e.owner = .report ∧ e.sending = false ∧
       byteAt e.payload 0 % 16 = u.engine.nodeState.code
     let stops := fun (code : Nat) (u : State) =>
       (∀ b : Fin 4, u.axes[b] = { s.axes[b] with plan := none } ∧
         u.engine.holdTargets[b] = s.axes[b].commanded.toInt) ∧
       u.engine.path = { s.engine.path with onPath := false } ∧
       (state ∉ [NodeState.settling, .excluded] → u.engine.nodeState = .stopped ∧
         u.roster.resume = s.roster.resume) ∧
       (state ∈ [NodeState.settling, .excluded] → u.engine.nodeState = state ∧
         u.roster = { s.roster with resume := .stopped } ∧ u.line = s.line) ∧
       (state = .stopped → u.line = s.line ∧ u.store = s.store) ∧
       (state ∉ [NodeState.settling, .excluded, .stopped] → u.engine.slew = none ∧
         (room → reports u)) ∧
       (state ∈ [NodeState.running, .halting] →
         u.reg = s.reg.passEnded .stopped (some ⟨BitVec.ofNat 8 code, s.ownNumber⟩)
           s.engine.halt.late ∧
         (∀ e ∈ u.roster.table, e.watched = false) ∧
         u.engine.halt.rampStart = s.engine.halt.rampStart ∧
         (s.engine.halt.rampStart = none → room → offersHalt u s.passStart ramp code) ∧
         (s.engine.halt.rampStart ≠ none → halts u.line.txQueue = halts s.line.txQueue)) ∧
       (state = .pending → u.sup.notes[3] = true ∧ (room → offersDecline u)) ∧
       (state = .armed → u.sup.notes[3] = true) ∧
       (state ∈ [NodeState.armed, .idle, .slewing, .returning, .halted, .ended, .loading] → room →
         offersHalt u 16777215 0 code) ∧
       (state = .loading → s.store.phase ∈ [StorePhase.loading, .validating] →
         u.store.phase = .empty ∧ u.store.header = none ∧ u.store.cueList = [] ∧
         ∀ c, s.store.phase = .validating → s.store.commit = some c → room →
           ∃ e ∈ u.line.txQueue, e.cls = 5 ∧ e.kind = 7 ∧ e.payload =
             [BitVec.ofNat 8 c.requester.toNat, 3, 4, 7, 255, 255]) ∧
       (state ∉ [NodeState.running, .halting] → u.reg = s.reg)
     (∀ side : LimitEnd, ∃ u, exec (.limitInputFalling t a side) s = .next u ∧
       u.now = max s.now t ∧ u.latchedCause .limitSwitch = true ∧
       u.sup.axisSets[0] = s.sup.axisSets[0] ||| (1#4 <<< a.val) ∧
       u.sup.limit a side = edge s.sup.setup.limitSens (s.sup.limit a side) ∧
       (∀ plan, s.axes[a].plan = some plan → (plan.increasing = true ↔ side = .max) →
         u.axes[a].plan = none) ∧
       (∀ b : Fin 4, u.axes[b].commanded = s.axes[b].commanded) ∧
       (∀ b : Fin 4, b ≠ a → u.axes[b] = s.axes[b]) ∧ u.store = s.store ∧ u.reg = s.reg ∧
       (state = .running → u.engine.nodeState = .running ∧
         (s.engine.halt.rampStart = none → u.engine.halt.rampStart = some ramp ∧
           u.engine.halt.cause = some ⟨2, s.ownNumber⟩ ∧ (room → offersHalt u s.passStart ramp 2)) ∧
         (s.engine.halt.rampStart ≠ none → u.engine = s.engine ∧ u.line = s.line)) ∧
       (state = .pending ∨ state = .armed → u.engine.nodeState = .idle ∧
         u.engine.path = { s.engine.path with onPath := false } ∧ u.sup.notes[3] = true ∧
         (room → reports u) ∧ (state = .pending → room → offersDecline u)) ∧
       (state = .slewing ∨ state = .returning →
         u.engine = { s.engine with slew := u.engine.slew } ∧ u.line = s.line ∧
         (s.engine.slew = none → u.engine.slew = none) ∧
         (∀ kind tPark scale moved decel,
           s.engine.slew = some (.axes kind tPark scale moved decel) →
           u.engine.slew = some (.axes kind tPark scale moved true)) ∧
         (∀ q count decel, s.engine.slew = some (.path q count decel) →
           u.engine.slew = some (.path q count true))) ∧
       (state ∈ [NodeState.halting, .idle, .loading, .halted, .ended, .stopped, .settling,
           .excluded] → u.engine = s.engine ∧ u.line = s.line)) ∧
     (∀ side : LimitEnd, ∃ u, exec (.limitInputRising t a side) s = .next u ∧
       u.now = max s.now t ∧
       u.sup.limit a side = { s.sup.limit a side with low := false } ∧
       u.sup.latched = s.sup.latched ∧ u.axes = s.axes ∧
       (s.engine.nodeState = .idle ∨ s.engine.nodeState = .armed →
         u.engine.path = s.engine.path ∧ (u.engine.nodeState = .idle ∨ u.engine.nodeState = .armed) ∧
         (u.engine.nodeState = .armed ↔ ({ s with now := u.now, sup := u.sup } : State).armable)) ∧
       (s.engine.nodeState ∉ [NodeState.idle, .armed, .pending] →
         u = { s with now := u.now, sup := u.sup })) ∧
     (∃ u, exec (.driveFaultInputFalling t a) s = .next u ∧ u.now = max s.now t ∧
       u.latchedCause .driveFault = true ∧
       u.sup.axisSets[1] = s.sup.axisSets[1] ||| (1#4 <<< a.val) ∧
       u.sup.drive[a] = edge s.sup.setup.driveSens s.sup.drive[a] ∧ stops 1 u) ∧
     (∃ u, exec (.driveFaultInputRising t a) s = .next u ∧ u.now = max s.now t ∧
       u.sup.drive[a] = { s.sup.drive[a] with low := false } ∧
       u.sup.latched = s.sup.latched ∧ u.axes = s.axes) ∧
     (∃ u, exec (.estopFalling t) s = .next u ∧ u.now = max s.now t ∧ u.sup.estopLow = true ∧
       u.latchedCause .estop = true ∧ stops 0 u) ∧
     (∃ u, exec (.estopRising t) s = .next u ∧ u.now = max s.now t ∧
       u.sup = { s.sup with estopLow := false, counters := u.sup.counters } ∧
       u.axes = s.axes ∧
       (s.engine.nodeState = .stopped → u.engine = s.engine)))

/-- R171, R172, R181 to R183: the first scan after a reset is discarded. A later one updates the
readings and the reference check; one that passes it judges the supply and the temperature over runs
of 4 scans and hands the lamp supplies on, from which each pending duty is computed afresh, compensated
where compensation is in force; one that fails it leaves the judgements as they were and the duty
uncompensated. -/
def Obligations.ScanIsJudged : Prop :=
  ∀ (scan : ScanReadings) (s : State), s.defaults →
    (let d := s.sup.scanStart + 6000
     let passes := 1000 ≤ scan.refHigh.toNat ∧ scan.refLow.toNat ≤ 23
     let low := scan.rigSupply.toNat < s.sup.setup.undervoltage
     let back := min 1023 (s.sup.setup.undervoltage + 8) ≤ scan.rigSupply.toNat
     let hot := s.sup.setup.temperature < scan.temp.toNat
     let cool := scan.temp.toNat ≤ s.sup.setup.temperature - 8
     let lamp := fun l : Fin 2 => if l = 0 then scan.lampA.toNat else scan.lampB.toNat
     (∀ cause rate participant serial encoders waiting free,
       (State.afterReset cause rate participant serial encoders waiting free).sup.adcFault =
         false) ∧
     Cause.adcFault.fixed = true ∧ defaultDispositions[Cause.adcFault.idx] = .warn ∧
     (s.sup.firstScan = true → exec (.scanComplete scan) s = .next { s with
       now := max s.now d, sup := { s.sup with scanStart := d, firstScan := false } }) ∧
     (s.sup.firstScan = false → ∃ u, exec (.scanComplete scan) s = .next u ∧
       u.now = max s.now d ∧ u.sup.scanStart = d ∧ u.sup.readings = some scan ∧
       (u.sup.adcFault = true ↔ ¬ passes) ∧ u.axes = s.axes ∧ u.store = s.store ∧
       (∀ l : Fin 2, u.levels[l].level = s.levels[l].level ∧
         u.levels[l].activeDuty = s.levels[l].activeDuty) ∧
       (passes →
         (s.sup.adcFault = false → u.latchedCause .adcFault = s.latchedCause .adcFault) ∧
         (∀ l : Fin 2, u.levels[l].supply = some (lamp l)) ∧
         (∀ (l : Fin 2) (h : MoveHeader) (x : LevelSetup), s.store.phase = .valid →
           s.store.header = some h → h.enables[l.val + 4] = true →
           s.store.levelSetups[l] = some x → x.compensation = 1 →
           (let v := s.levels[l].level
            let d := if h.rounding = .chop then v * x.nominal / lamp l
              else (2 * (v * x.nominal) + lamp l) / (2 * lamp l)
            (2 * lamp l < x.nominal → u.levels[l].pendingDuty = min 1023 (2 * v) ∧
              u.levels[l].supplyLow = true ∧ (u.levels[l].clamped = true ↔ 1023 < 2 * v)) ∧
            (x.nominal ≤ 2 * lamp l → u.levels[l].pendingDuty = min 1023 d ∧
              u.levels[l].supplyLow = false ∧ (u.levels[l].clamped = true ↔ 1023 < d)))) ∧
         (∀ l : Fin 2, (s.store.phase ≠ .valid ∨
             s.store.header.map (fun h => h.enables[l.val + 4]) ≠ some true ∨
             s.store.levelSetups[l].map LevelSetup.compensation ≠ some 1) →
           u.levels[l].pendingDuty = s.levels[l].level ∧ u.levels[l].supplyLow = false ∧
             u.levels[l].clamped = false) ∧
         (s.sup.supply.live = false → ¬ low → u.sup.supply.live = false ∧ u.sup.supply.run = 0) ∧
         (s.sup.supply.live = false → low → s.sup.supply.run < 3 →
           u.sup.supply.live = false ∧ u.sup.supply.run = s.sup.supply.run + 1) ∧
         (s.sup.supply.live = false → low → 3 ≤ s.sup.supply.run →
           u.sup.supply.live = true ∧ u.latchedCause .supplyUv = true ∧
           (s.engine.nodeState = .running → s.engine.halt.rampStart = none →
             u.engine.halt.rampStart =
               some (s.engine.tick + haltLead s.engine.tickDuration))) ∧
         (s.sup.supply.live = true → ¬ back → u.sup.supply.live = true ∧
           u.sup.supply.recovery = 0) ∧
         (s.sup.supply.live = true → back → s.sup.supply.recovery < 3 →
           u.sup.supply.live = true ∧ u.sup.supply.recovery = s.sup.supply.recovery + 1) ∧
         (s.sup.supply.live = true → back → 3 ≤ s.sup.supply.recovery →
           u.sup.supply.live = false) ∧
         (s.sup.temp.live = false → ¬ hot → u.sup.temp.live = false ∧ u.sup.temp.run = 0) ∧
         (s.sup.temp.live = false → hot → s.sup.temp.run < 3 →
           u.sup.temp.live = false ∧ u.sup.temp.run = s.sup.temp.run + 1) ∧
         (s.sup.temp.live = false → hot → 3 ≤ s.sup.temp.run →
           u.sup.temp.live = true ∧ u.sup.temp.run = 0 ∧ u.latchedCause .tempHigh = true) ∧
         (s.sup.temp.live = true ∨ ¬ hot ∨ s.sup.temp.run < 3 →
           u.latchedCause .tempHigh = s.latchedCause .tempHigh) ∧
         (s.sup.temp.live = true → ¬ cool → u.sup.temp.live = true ∧ u.sup.temp.recovery = 0) ∧
         (s.sup.temp.live = true → cool → s.sup.temp.recovery < 3 →
           u.sup.temp.live = true ∧ u.sup.temp.recovery = s.sup.temp.recovery + 1) ∧
         (s.sup.temp.live = true → cool → 3 ≤ s.sup.temp.recovery →
           u.sup.temp.live = false ∧ u.sup.temp.recovery = 0)) ∧
       (¬ passes → u.sup.supply = s.sup.supply ∧ u.sup.temp = s.sup.temp ∧
         (s.sup.adcFault = false → u.latchedCause .adcFault = true) ∧
         (s.sup.adcFault = true → u.sup.latched = s.sup.latched) ∧
         ∀ l : Fin 2, u.levels[l] = { s.levels[l] with
           pendingDuty := s.levels[l].level, supplyLow := false, clamped := false })))

end
end

