-- ==== Sys2Proof/Laws/State.lean ====
section
/-! SUPPORT. One lemma per field of the state for each update of one block, so that no proof unfolds a
record update; what a run of line bits does to the interface; and what a read at the base clock of a
change gives. -/

namespace Sys2Proof.Machine

/-! ## reach -/

section
variable (s : State) (t : Nat)

@[simp] theorem State.reach_pending : (s.reach t).pending = s.pending := rfl
@[simp] theorem State.reach_now : (s.reach t).now = Nat.max s.now t := rfl
@[simp] theorem State.reach_serial : (s.reach t).serial = s.serial := rfl
@[simp] theorem State.reach_participant : (s.reach t).participant = s.participant := rfl
@[simp] theorem State.reach_line : (s.reach t).line = s.line := rfl
@[simp] theorem State.reach_roster : (s.reach t).roster = s.roster := rfl
@[simp] theorem State.reach_clock : (s.reach t).clock = s.clock := rfl
@[simp] theorem State.reach_store : (s.reach t).store = s.store := rfl
@[simp] theorem State.reach_engine : (s.reach t).engine = s.engine := rfl
@[simp] theorem State.reach_axes : (s.reach t).axes = s.axes := rfl
@[simp] theorem State.reach_reg : (s.reach t).reg = s.reg := rfl
@[simp] theorem State.reach_levels : (s.reach t).levels = s.levels := rfl
@[simp] theorem State.reach_pwmStart : (s.reach t).pwmStart = s.pwmStart := rfl
@[simp] theorem State.reach_cues : (s.reach t).cues = s.cues := rfl
@[simp] theorem State.reach_sup : (s.reach t).sup = s.sup := rfl
@[simp] theorem State.reach_free : (s.reach t).free = s.free := rfl

end

/-! ## onLine -/

section
variable (s : State) (f : LineInterface → LineInterface)

@[simp] theorem State.onLine_pending : (s.onLine f).pending = s.pending := rfl
@[simp] theorem State.onLine_now : (s.onLine f).now = s.now := rfl
@[simp] theorem State.onLine_serial : (s.onLine f).serial = s.serial := rfl
@[simp] theorem State.onLine_participant : (s.onLine f).participant = s.participant := rfl
@[simp] theorem State.onLine_line : (s.onLine f).line = f s.line := rfl
@[simp] theorem State.onLine_roster : (s.onLine f).roster = s.roster := rfl
@[simp] theorem State.onLine_clock : (s.onLine f).clock = s.clock := rfl
@[simp] theorem State.onLine_store : (s.onLine f).store = s.store := rfl
@[simp] theorem State.onLine_engine : (s.onLine f).engine = s.engine := rfl
@[simp] theorem State.onLine_axes : (s.onLine f).axes = s.axes := rfl
@[simp] theorem State.onLine_reg : (s.onLine f).reg = s.reg := rfl
@[simp] theorem State.onLine_levels : (s.onLine f).levels = s.levels := rfl
@[simp] theorem State.onLine_pwmStart : (s.onLine f).pwmStart = s.pwmStart := rfl
@[simp] theorem State.onLine_cues : (s.onLine f).cues = s.cues := rfl
@[simp] theorem State.onLine_sup : (s.onLine f).sup = s.sup := rfl
@[simp] theorem State.onLine_free : (s.onLine f).free = s.free := rfl

end

/-! ## onRoster -/

section
variable (s : State) (f : Roster → Roster)

@[simp] theorem State.onRoster_pending : (s.onRoster f).pending = s.pending := rfl
@[simp] theorem State.onRoster_now : (s.onRoster f).now = s.now := rfl
@[simp] theorem State.onRoster_serial : (s.onRoster f).serial = s.serial := rfl
@[simp] theorem State.onRoster_participant : (s.onRoster f).participant = s.participant := rfl
@[simp] theorem State.onRoster_line : (s.onRoster f).line = s.line := rfl
@[simp] theorem State.onRoster_roster : (s.onRoster f).roster = f s.roster := rfl
@[simp] theorem State.onRoster_clock : (s.onRoster f).clock = s.clock := rfl
@[simp] theorem State.onRoster_store : (s.onRoster f).store = s.store := rfl
@[simp] theorem State.onRoster_engine : (s.onRoster f).engine = s.engine := rfl
@[simp] theorem State.onRoster_axes : (s.onRoster f).axes = s.axes := rfl
@[simp] theorem State.onRoster_reg : (s.onRoster f).reg = s.reg := rfl
@[simp] theorem State.onRoster_levels : (s.onRoster f).levels = s.levels := rfl
@[simp] theorem State.onRoster_pwmStart : (s.onRoster f).pwmStart = s.pwmStart := rfl
@[simp] theorem State.onRoster_cues : (s.onRoster f).cues = s.cues := rfl
@[simp] theorem State.onRoster_sup : (s.onRoster f).sup = s.sup := rfl
@[simp] theorem State.onRoster_free : (s.onRoster f).free = s.free := rfl

end

/-! ## onClock -/

section
variable (s : State) (f : FrameClock → FrameClock)

@[simp] theorem State.onClock_pending : (s.onClock f).pending = s.pending := rfl
@[simp] theorem State.onClock_now : (s.onClock f).now = s.now := rfl
@[simp] theorem State.onClock_serial : (s.onClock f).serial = s.serial := rfl
@[simp] theorem State.onClock_participant : (s.onClock f).participant = s.participant := rfl
@[simp] theorem State.onClock_line : (s.onClock f).line = s.line := rfl
@[simp] theorem State.onClock_roster : (s.onClock f).roster = s.roster := rfl
@[simp] theorem State.onClock_clock : (s.onClock f).clock = f s.clock := rfl
@[simp] theorem State.onClock_store : (s.onClock f).store = s.store := rfl
@[simp] theorem State.onClock_engine : (s.onClock f).engine = s.engine := rfl
@[simp] theorem State.onClock_axes : (s.onClock f).axes = s.axes := rfl
@[simp] theorem State.onClock_reg : (s.onClock f).reg = s.reg := rfl
@[simp] theorem State.onClock_levels : (s.onClock f).levels = s.levels := rfl
@[simp] theorem State.onClock_pwmStart : (s.onClock f).pwmStart = s.pwmStart := rfl
@[simp] theorem State.onClock_cues : (s.onClock f).cues = s.cues := rfl
@[simp] theorem State.onClock_sup : (s.onClock f).sup = s.sup := rfl
@[simp] theorem State.onClock_free : (s.onClock f).free = s.free := rfl

end

/-! ## onStore -/

section
variable (s : State) (f : MoveStore → MoveStore)

@[simp] theorem State.onStore_pending : (s.onStore f).pending = s.pending := rfl
@[simp] theorem State.onStore_now : (s.onStore f).now = s.now := rfl
@[simp] theorem State.onStore_serial : (s.onStore f).serial = s.serial := rfl
@[simp] theorem State.onStore_participant : (s.onStore f).participant = s.participant := rfl
@[simp] theorem State.onStore_line : (s.onStore f).line = s.line := rfl
@[simp] theorem State.onStore_roster : (s.onStore f).roster = s.roster := rfl
@[simp] theorem State.onStore_clock : (s.onStore f).clock = s.clock := rfl
@[simp] theorem State.onStore_store : (s.onStore f).store = f s.store := rfl
@[simp] theorem State.onStore_engine : (s.onStore f).engine = s.engine := rfl
@[simp] theorem State.onStore_axes : (s.onStore f).axes = s.axes := rfl
@[simp] theorem State.onStore_reg : (s.onStore f).reg = s.reg := rfl
@[simp] theorem State.onStore_levels : (s.onStore f).levels = s.levels := rfl
@[simp] theorem State.onStore_pwmStart : (s.onStore f).pwmStart = s.pwmStart := rfl
@[simp] theorem State.onStore_cues : (s.onStore f).cues = s.cues := rfl
@[simp] theorem State.onStore_sup : (s.onStore f).sup = s.sup := rfl
@[simp] theorem State.onStore_free : (s.onStore f).free = s.free := rfl

end

/-! ## onEngine -/

section
variable (s : State) (f : Engine → Engine)

@[simp] theorem State.onEngine_pending : (s.onEngine f).pending = s.pending := rfl
@[simp] theorem State.onEngine_now : (s.onEngine f).now = s.now := rfl
@[simp] theorem State.onEngine_serial : (s.onEngine f).serial = s.serial := rfl
@[simp] theorem State.onEngine_participant : (s.onEngine f).participant = s.participant := rfl
@[simp] theorem State.onEngine_line : (s.onEngine f).line = s.line := rfl
@[simp] theorem State.onEngine_roster : (s.onEngine f).roster = s.roster := rfl
@[simp] theorem State.onEngine_clock : (s.onEngine f).clock = s.clock := rfl
@[simp] theorem State.onEngine_store : (s.onEngine f).store = s.store := rfl
@[simp] theorem State.onEngine_engine : (s.onEngine f).engine = f s.engine := rfl
@[simp] theorem State.onEngine_axes : (s.onEngine f).axes = s.axes := rfl
@[simp] theorem State.onEngine_reg : (s.onEngine f).reg = s.reg := rfl
@[simp] theorem State.onEngine_levels : (s.onEngine f).levels = s.levels := rfl
@[simp] theorem State.onEngine_pwmStart : (s.onEngine f).pwmStart = s.pwmStart := rfl
@[simp] theorem State.onEngine_cues : (s.onEngine f).cues = s.cues := rfl
@[simp] theorem State.onEngine_sup : (s.onEngine f).sup = s.sup := rfl
@[simp] theorem State.onEngine_free : (s.onEngine f).free = s.free := rfl

end

/-! ## onReg -/

section
variable (s : State) (f : Registration → Registration)

@[simp] theorem State.onReg_pending : (s.onReg f).pending = s.pending := rfl
@[simp] theorem State.onReg_now : (s.onReg f).now = s.now := rfl
@[simp] theorem State.onReg_serial : (s.onReg f).serial = s.serial := rfl
@[simp] theorem State.onReg_participant : (s.onReg f).participant = s.participant := rfl
@[simp] theorem State.onReg_line : (s.onReg f).line = s.line := rfl
@[simp] theorem State.onReg_roster : (s.onReg f).roster = s.roster := rfl
@[simp] theorem State.onReg_clock : (s.onReg f).clock = s.clock := rfl
@[simp] theorem State.onReg_store : (s.onReg f).store = s.store := rfl
@[simp] theorem State.onReg_engine : (s.onReg f).engine = s.engine := rfl
@[simp] theorem State.onReg_axes : (s.onReg f).axes = s.axes := rfl
@[simp] theorem State.onReg_reg : (s.onReg f).reg = f s.reg := rfl
@[simp] theorem State.onReg_levels : (s.onReg f).levels = s.levels := rfl
@[simp] theorem State.onReg_pwmStart : (s.onReg f).pwmStart = s.pwmStart := rfl
@[simp] theorem State.onReg_cues : (s.onReg f).cues = s.cues := rfl
@[simp] theorem State.onReg_sup : (s.onReg f).sup = s.sup := rfl
@[simp] theorem State.onReg_free : (s.onReg f).free = s.free := rfl

end

/-! ## onSup -/

section
variable (s : State) (f : Supervision → Supervision)

@[simp] theorem State.onSup_pending : (s.onSup f).pending = s.pending := rfl
@[simp] theorem State.onSup_now : (s.onSup f).now = s.now := rfl
@[simp] theorem State.onSup_serial : (s.onSup f).serial = s.serial := rfl
@[simp] theorem State.onSup_participant : (s.onSup f).participant = s.participant := rfl
@[simp] theorem State.onSup_line : (s.onSup f).line = s.line := rfl
@[simp] theorem State.onSup_roster : (s.onSup f).roster = s.roster := rfl
@[simp] theorem State.onSup_clock : (s.onSup f).clock = s.clock := rfl
@[simp] theorem State.onSup_store : (s.onSup f).store = s.store := rfl
@[simp] theorem State.onSup_engine : (s.onSup f).engine = s.engine := rfl
@[simp] theorem State.onSup_axes : (s.onSup f).axes = s.axes := rfl
@[simp] theorem State.onSup_reg : (s.onSup f).reg = s.reg := rfl
@[simp] theorem State.onSup_levels : (s.onSup f).levels = s.levels := rfl
@[simp] theorem State.onSup_pwmStart : (s.onSup f).pwmStart = s.pwmStart := rfl
@[simp] theorem State.onSup_cues : (s.onSup f).cues = s.cues := rfl
@[simp] theorem State.onSup_sup : (s.onSup f).sup = f s.sup := rfl
@[simp] theorem State.onSup_free : (s.onSup f).free = s.free := rfl

end

/-! ## onAxis -/

section
variable (s : State) (i : Fin 4) (f : AxisChannel → AxisChannel)

@[simp] theorem State.onAxis_pending : (s.onAxis i f).pending = s.pending := rfl
@[simp] theorem State.onAxis_now : (s.onAxis i f).now = s.now := rfl
@[simp] theorem State.onAxis_serial : (s.onAxis i f).serial = s.serial := rfl
@[simp] theorem State.onAxis_participant : (s.onAxis i f).participant = s.participant := rfl
@[simp] theorem State.onAxis_line : (s.onAxis i f).line = s.line := rfl
@[simp] theorem State.onAxis_roster : (s.onAxis i f).roster = s.roster := rfl
@[simp] theorem State.onAxis_clock : (s.onAxis i f).clock = s.clock := rfl
@[simp] theorem State.onAxis_store : (s.onAxis i f).store = s.store := rfl
@[simp] theorem State.onAxis_engine : (s.onAxis i f).engine = s.engine := rfl
@[simp] theorem State.onAxis_axes : (s.onAxis i f).axes = s.axes.set i (f s.axes[i]) := rfl
@[simp] theorem State.onAxis_reg : (s.onAxis i f).reg = s.reg := rfl
@[simp] theorem State.onAxis_levels : (s.onAxis i f).levels = s.levels := rfl
@[simp] theorem State.onAxis_pwmStart : (s.onAxis i f).pwmStart = s.pwmStart := rfl
@[simp] theorem State.onAxis_cues : (s.onAxis i f).cues = s.cues := rfl
@[simp] theorem State.onAxis_sup : (s.onAxis i f).sup = s.sup := rfl
@[simp] theorem State.onAxis_free : (s.onAxis i f).free = s.free := rfl

end

/-! ## onLevel -/

section
variable (s : State) (i : Fin 2) (f : LevelChannel → LevelChannel)

@[simp] theorem State.onLevel_pending : (s.onLevel i f).pending = s.pending := rfl
@[simp] theorem State.onLevel_now : (s.onLevel i f).now = s.now := rfl
@[simp] theorem State.onLevel_serial : (s.onLevel i f).serial = s.serial := rfl
@[simp] theorem State.onLevel_participant : (s.onLevel i f).participant = s.participant := rfl
@[simp] theorem State.onLevel_line : (s.onLevel i f).line = s.line := rfl
@[simp] theorem State.onLevel_roster : (s.onLevel i f).roster = s.roster := rfl
@[simp] theorem State.onLevel_clock : (s.onLevel i f).clock = s.clock := rfl
@[simp] theorem State.onLevel_store : (s.onLevel i f).store = s.store := rfl
@[simp] theorem State.onLevel_engine : (s.onLevel i f).engine = s.engine := rfl
@[simp] theorem State.onLevel_axes : (s.onLevel i f).axes = s.axes := rfl
@[simp] theorem State.onLevel_reg : (s.onLevel i f).reg = s.reg := rfl
@[simp] theorem State.onLevel_levels : (s.onLevel i f).levels = s.levels.set i (f s.levels[i]) := rfl
@[simp] theorem State.onLevel_pwmStart : (s.onLevel i f).pwmStart = s.pwmStart := rfl
@[simp] theorem State.onLevel_cues : (s.onLevel i f).cues = s.cues := rfl
@[simp] theorem State.onLevel_sup : (s.onLevel i f).sup = s.sup := rfl
@[simp] theorem State.onLevel_free : (s.onLevel i f).free = s.free := rfl

end

/-! ## onAxes -/

section
variable (s : State) (f : AxisChannel → AxisChannel)

@[simp] theorem State.onAxes_pending : (s.onAxes f).pending = s.pending := rfl
@[simp] theorem State.onAxes_now : (s.onAxes f).now = s.now := rfl
@[simp] theorem State.onAxes_serial : (s.onAxes f).serial = s.serial := rfl
@[simp] theorem State.onAxes_participant : (s.onAxes f).participant = s.participant := rfl
@[simp] theorem State.onAxes_line : (s.onAxes f).line = s.line := rfl
@[simp] theorem State.onAxes_roster : (s.onAxes f).roster = s.roster := rfl
@[simp] theorem State.onAxes_clock : (s.onAxes f).clock = s.clock := rfl
@[simp] theorem State.onAxes_store : (s.onAxes f).store = s.store := rfl
@[simp] theorem State.onAxes_engine : (s.onAxes f).engine = s.engine := rfl
@[simp] theorem State.onAxes_axes : (s.onAxes f).axes = Vector.ofFn fun i => f s.axes[i] := rfl
@[simp] theorem State.onAxes_reg : (s.onAxes f).reg = s.reg := rfl
@[simp] theorem State.onAxes_levels : (s.onAxes f).levels = s.levels := rfl
@[simp] theorem State.onAxes_pwmStart : (s.onAxes f).pwmStart = s.pwmStart := rfl
@[simp] theorem State.onAxes_cues : (s.onAxes f).cues = s.cues := rfl
@[simp] theorem State.onAxes_sup : (s.onAxes f).sup = s.sup := rfl
@[simp] theorem State.onAxes_free : (s.onAxes f).free = s.free := rfl

end

/-! ## onCues -/

section
variable (s : State) (f : CueLine → CueLine)

@[simp] theorem State.onCues_pending : (s.onCues f).pending = s.pending := rfl
@[simp] theorem State.onCues_now : (s.onCues f).now = s.now := rfl
@[simp] theorem State.onCues_serial : (s.onCues f).serial = s.serial := rfl
@[simp] theorem State.onCues_participant : (s.onCues f).participant = s.participant := rfl
@[simp] theorem State.onCues_line : (s.onCues f).line = s.line := rfl
@[simp] theorem State.onCues_roster : (s.onCues f).roster = s.roster := rfl
@[simp] theorem State.onCues_clock : (s.onCues f).clock = s.clock := rfl
@[simp] theorem State.onCues_store : (s.onCues f).store = s.store := rfl
@[simp] theorem State.onCues_engine : (s.onCues f).engine = s.engine := rfl
@[simp] theorem State.onCues_axes : (s.onCues f).axes = s.axes := rfl
@[simp] theorem State.onCues_reg : (s.onCues f).reg = s.reg := rfl
@[simp] theorem State.onCues_levels : (s.onCues f).levels = s.levels := rfl
@[simp] theorem State.onCues_pwmStart : (s.onCues f).pwmStart = s.pwmStart := rfl
@[simp] theorem State.onCues_cues : (s.onCues f).cues = Vector.ofFn fun i => f s.cues[i] := rfl
@[simp] theorem State.onCues_sup : (s.onCues f).sup = s.sup := rfl
@[simp] theorem State.onCues_free : (s.onCues f).free = s.free := rfl

end

/-! ## Runs of line bits (R4, R9) -/

/-- All that a run of `n` equal bits does to the interface. -/
theorem LineInterface.readRun_eq (dominant : Bool) (n : Nat) (l : LineInterface) :
    l.readRun dominant n =
      { l with
        dominantRun := if n = 0 then l.dominantRun else if dominant then l.dominantRun + n else 0
        quietCount :=
          if n = 0 ∨ l.state ≠ .waitQuiet then l.quietCount
          else if dominant then 0 else l.quietCount + n } := by
  induction n generalizing l with
  | zero => simp [readRun]
  | succ n ih =>
    rw [readRun, ih]
    cases dominant <;> by_cases hs : l.state = .waitQuiet <;> by_cases hn : n = 0 <;>
      simp [readBit, hs, hn] <;> omega

@[simp] theorem State.readLine_line (s : State) (b : Bool) (n : Nat) :
    (s.readLine b n).line = s.line.readRun b n := rfl
@[simp] theorem State.readLine_engine (s : State) (b : Bool) (n : Nat) :
    (s.readLine b n).engine = s.engine := rfl
@[simp] theorem State.drive_line (s : State) (b : Bool) :
    (s.drive b).line = { s.line with outputDominant := b } := rfl
@[simp] theorem State.drive_engine (s : State) (b : Bool) : (s.drive b).engine = s.engine := rfl

/-! ## Reads at the base clock of a change (R138, R144) -/

section
variable (x : AxisChannel) (now : Nat)

/-- Away from a leading edge's base clock the commanded position is read as it stands. -/
theorem AxisChannel.commandedAt_of_ne (h : x.lastEdge ≠ some now) :
    x.commandedAt now = x.commanded.toInt := by simp [commandedAt, h]

/-- At a leading edge's base clock the value before the edge is read. -/
theorem AxisChannel.lead_commandedAt (p : Plan) (h : x.plan = some p) :
    (x.lead now).commandedAt now = x.commanded.toInt := by simp [commandedAt, lead, h]

/-- Away from a change's base clock the encoder count is read as it stands. -/
theorem AxisChannel.encoderAt_of_ne (h : x.encoderChanged ≠ some now) :
    x.encoderAt now = x.encoder := by simp [encoderAt, h]

/-- At a change's base clock the count with which that base clock began is read. -/
theorem AxisChannel.setEncoder_encoderAt (v : Word32) :
    (x.setEncoder now v).encoderAt now = x.encoderAt now := by simp [setEncoder, encoderAt]

end

end Sys2Proof.Machine
end

