-- ==== Sys2Proof/Laws/Kept.lean ====
section
/-! SUPPORT. What the shared operations keep: the waiting commands, the serial and the bounds of
Safety.lean. One lemma per operation, which composes with the others by `Kept.trans`. -/

namespace Sys2Proof.Machine

/-- What no shared operation breaks. -/
structure Kept (s t : State) : Prop where
  pending : t.pending = s.pending
  serial : t.serial = s.serial
  participant : t.participant = s.participant
  now : s.now ≤ t.now
  cells : s.cellsWf = true → t.cellsWf = true
  queues : s.queuesFit = true → t.queuesFit = true
  roster : s.rosterFits = true → t.rosterFits = true
  counters : s.countersFit = true → t.countersFit = true
  registration : s.registrationFits = true → t.registrationFits = true

theorem Kept.refl (s : State) : Kept s s := ⟨rfl, rfl, rfl, Nat.le_refl _, id, id, id, id, id⟩

theorem Kept.trans {s t u : State} (h : Kept s t) (k : Kept t u) : Kept s u :=
  ⟨k.pending.trans h.pending, k.serial.trans h.serial, k.participant.trans h.participant,
   h.now.trans k.now, k.cells ∘ h.cells, k.queues ∘ h.queues,
   k.roster ∘ h.roster, k.counters ∘ h.counters, k.registration ∘ h.registration⟩

theorem Kept.ite {p : Prop} [Decidable p] {s t u : State} (h : p → Kept s t) (k : ¬ p → Kept s u) :
    Kept s (if p then t else u) := by
  split
  · exact h ‹_›
  · exact k ‹_›

theorem Kept.foldl {α : Type} {f : State → α → State} (h : ∀ s a, Kept s (f s a)) (l : List α)
    (s : State) : Kept s (l.foldl f s) := by
  induction l generalizing s with
  | nil => exact .refl s
  | cons a l ih => exact (h s a).trans (ih _)

/-! ## Updates of one block -/

theorem Kept.reach (t : Nat) (s : State) : Kept s (s.reach t) :=
  ⟨rfl, rfl, rfl, Nat.le_max_left .., id, id, id, id, id⟩
theorem Kept.onClock (f) (s : State) : Kept s (s.onClock f) := ⟨rfl, rfl, rfl, Nat.le_refl _, id, id, id, id, id⟩
theorem Kept.onEngine (f) (s : State) : Kept s (s.onEngine f) := ⟨rfl, rfl, rfl, Nat.le_refl _, id, id, id, id, id⟩
theorem Kept.onAxis (i f) (s : State) : Kept s (s.onAxis i f) := ⟨rfl, rfl, rfl, Nat.le_refl _, id, id, id, id, id⟩
theorem Kept.onLevel (i f) (s : State) : Kept s (s.onLevel i f) := ⟨rfl, rfl, rfl, Nat.le_refl _, id, id, id, id, id⟩
theorem Kept.onAxes (f) (s : State) : Kept s (s.onAxes f) := ⟨rfl, rfl, rfl, Nat.le_refl _, id, id, id, id, id⟩
theorem Kept.onCues (f) (s : State) : Kept s (s.onCues f) := ⟨rfl, rfl, rfl, Nat.le_refl _, id, id, id, id, id⟩

theorem Kept.onSup {f : Supervision → Supervision} {s : State}
    (h : (f s.sup).counters = s.sup.counters) : Kept s (s.onSup f) :=
  ⟨rfl, rfl, rfl, Nat.le_refl _, id, id, id, fun k => by simpa [State.countersFit, h] using k, id⟩

theorem Kept.onStore {f : MoveStore → MoveStore} {s : State}
    (h : s.store.pool.wf = true → (f s.store).pool.wf = true) : Kept s (s.onStore f) :=
  ⟨rfl, rfl, rfl, Nat.le_refl _, fun k => by simp [State.cellsWf] at k ⊢; exact ⟨⟨h k.1.1, k.1.2⟩, k.2⟩, id, id, id, id⟩

theorem Kept.onRoster {f : Roster → Roster} {s : State}
    (h : s.roster.table.length ≤ 24 → (f s.roster).table.length ≤ 24) : Kept s (s.onRoster f) :=
  ⟨rfl, rfl, rfl, Nat.le_refl _, id, id, fun k => by
    simp only [State.rosterFits, decide_eq_true_eq] at k ⊢; exact h k, id, id⟩

theorem Kept.onLine {f : LineInterface → LineInterface} {s : State}
    (h : s.line.txQueue.length ≤ 8 → s.line.requestQueue.length ≤ 4 →
      (f s.line).txQueue.length ≤ 8 ∧ (f s.line).requestQueue.length ≤ 4) : Kept s (s.onLine f) :=
  ⟨rfl, rfl, rfl, Nat.le_refl _, id, fun k => by
    simp only [State.queuesFit, Bool.and_eq_true, decide_eq_true_eq] at k ⊢
    exact h k.1 k.2,
    id, id, id⟩

theorem Kept.onReg {f : Registration → Registration} {s : State}
    (h : s.reg.buffer1.frames.wf = true → s.reg.buffer2.frames.wf = true →
      (f s.reg).buffer1.frames.wf = true ∧ (f s.reg).buffer2.frames.wf = true)
    (k : s.reg.deviations.length ≤ 64 → s.reg.history.length ≤ 8 →
      (f s.reg).deviations.length ≤ 64 ∧ (f s.reg).history.length ≤ 8) : Kept s (s.onReg f) := by
  refine ⟨rfl, rfl, rfl, Nat.le_refl _, fun w => ?_, id, id, id, fun w => ?_⟩
  · simp only [State.cellsWf, Bool.and_eq_true, State.onReg_store, State.onReg_reg] at w ⊢
    exact ⟨⟨w.1.1, (h w.1.2 w.2).1⟩, (h w.1.2 w.2).2⟩
  · simp only [State.registrationFits, Bool.and_eq_true, decide_eq_true_eq] at w ⊢
    exact k w.1 w.2

/-! ## Numbered cells -/

theorem Cells.wf_cons {α : Type} (a : Nat) (x : α) (cs : Cells α) :
    Cells.wf ((a, x) :: cs) = true ↔ Cells.wf cs = true ∧ ∀ p ∈ cs.head?, a < p.1 := by
  cases cs with
  | nil => simp [Cells.wf]
  | cons p cs => obtain ⟨b, y⟩ := p; simp [Cells.wf, and_comm]

theorem Cells.head_write {α : Type} (a : Nat) (x : α) (cs : Cells α) :
    ∃ p ∈ (cs.write a x).head?, p.1 = a ∨ p ∈ cs.head? := by
  cases cs with
  | nil => exact ⟨(a, x), by simp [Cells.write]⟩
  | cons p cs =>
    obtain ⟨b, y⟩ := p
    simp only [Cells.write]
    split
    · exact ⟨(a, x), by simp⟩
    · split
      · exact ⟨(a, x), by simp⟩
      · exact ⟨(b, y), by simp⟩

/-- A write keeps the canonical form. -/
theorem Cells.wf_write {α : Type} (a : Nat) (x : α) (cs : Cells α) (h : cs.wf = true) :
    (cs.write a x).wf = true := by
  induction cs with
  | nil => rfl
  | cons p cs ih =>
    obtain ⟨b, y⟩ := p
    obtain ⟨hw, hb⟩ := (wf_cons b y cs).1 h
    simp only [Cells.write]
    split
    · exact (wf_cons ..).2 ⟨h, by simpa⟩
    · split
      · exact (wf_cons ..).2 ⟨hw, by simp_all⟩
      · refine (wf_cons ..).2 ⟨ih hw, fun p hp => ?_⟩
        obtain ⟨q, hq, hor⟩ := head_write a x cs
        obtain rfl : q = p := by simp_all
        rcases hor with rfl | hm
        · omega
        · exact hb q hm

/-- A read after a write: the written cell gives the value written, every other what it gave. -/
theorem Cells.read_write {α : Type} (a b : Nat) (x : α) (cs : Cells α) (h : cs.wf = true) :
    (cs.write a x).read b = if b = a then some x else cs.read b := by
  induction cs with
  | nil => simp only [Cells.write, Cells.read, eq_comm (a := a)]
  | cons p cs ih =>
    obtain ⟨c, y⟩ := p
    obtain ⟨hw, -⟩ := (wf_cons c y cs).1 h
    simp only [Cells.write]
    split
    · simp only [Cells.read, eq_comm (a := a)]
    · split
      · subst_vars
        by_cases hb : c = b
        · simp [Cells.read, hb]
        · simp [Cells.read, hb, Ne.symm hb]
      · simp only [Cells.read, ih hw]
        split
        · next hc => subst hc; rw [if_neg (by omega)]
        · rfl

/-! ## The transmit queue -/

@[simp] theorem placeEntry_length (e : TxEntry) (q : List TxEntry) :
    (placeEntry e q).length = q.length + 1 := by
  induction q with
  | nil => rfl
  | cons x q ih => simp only [placeEntry]; split <;> simp [ih]

@[simp] theorem updateFirst_length (p f) (q : List TxEntry) : (updateFirst p f q).length = q.length := by
  induction q with
  | nil => rfl
  | cons x q ih => simp only [updateFirst]; split <;> simp [ih]

theorem takeLastWaiting_length {q rest : List TxEntry} {d : TxEntry}
    (h : takeLastWaiting q = some (d, rest)) : rest.length + 1 = q.length := by
  induction q generalizing rest d with
  | nil => simp [takeLastWaiting] at h
  | cons x q ih =>
    simp only [takeLastWaiting] at h
    split at h
    · next e r he => have := ih he; simp at h; obtain ⟨rfl, rfl⟩ := h; simp; omega
    · split at h <;> simp at h; obtain ⟨rfl, rfl⟩ := h; simp

theorem Kept.count (c : Counter) (s : State) : Kept s (s.count c) := by
  refine ⟨rfl, rfl, rfl, Nat.le_refl _, id, id, id, fun h => ?_, id⟩
  simp only [State.countersFit, Vector.all_eq_true, decide_eq_true_eq, State.count,
    State.onSup_sup] at h ⊢
  intro i hi
  rw [Vector.getElem_set]
  split
  · simp [bump8]
  · exact h i hi

theorem Kept.note (n : Note) (s : State) : Kept s (s.note n) := Kept.onSup rfl

theorem Kept.outcome (o : TxOwner) (b : Bool) (s : State) : Kept s (s.outcome o b) := by
  unfold State.outcome
  split
  · exact .onEngine _ _
  · refine .onRoster fun h => ?_
    simp only [announceOutcome, drawAnnounceDelay]
    repeat' split
    all_goals exact h
  · exact .onLine fun h k => ⟨h, k⟩
  · exact .onLine fun h k => ⟨h, k⟩
  all_goals exact .refl s

theorem Kept.offer (e : TxEntry) (s : State) : Kept s (s.offer e) := by
  unfold State.offer judgeOffer
  split
  · exact .refl s
  · next q h =>
    refine .onLine fun k l => ⟨?_, l⟩
    split at h <;> try contradiction
    split at h
    · simp at h; subst h; simpa using k
    · split at h <;> try contradiction
      split at h <;> try contradiction
      split at h <;> contradiction
  · next q h =>
    refine .onLine fun k l => ⟨?_, l⟩
    split at h <;> try contradiction
    split at h <;> try contradiction
    split at h
    · next hq => simp at h; subst h; simp [Config.txCapacity] at hq ⊢; omega
    · split at h <;> try contradiction
      split at h <;> contradiction
  · next q g h =>
    refine Kept.trans ?_ (.outcome ..)
    refine Kept.trans ?_ (.count ..)
    refine .onLine fun k l => ⟨?_, l⟩
    split at h <;> try contradiction
    split at h <;> try contradiction
    split at h <;> try contradiction
    split at h <;> try contradiction
    split at h <;> try contradiction
    simp at h
    obtain ⟨rfl, rfl⟩ := h
    next hd =>
      have := takeLastWaiting_length hd
      simp only [placeEntry_length] at this
      dsimp only
      omega
  · exact (Kept.count ..).trans (.outcome ..)

theorem Kept.outcomes (b : Bool) (es : List TxEntry) (s : State) : Kept s (s.outcomes b es) := by
  unfold State.outcomes
  exact .foldl (fun s e => .outcome ..) es s

theorem Kept.emptyTx (keep) (s : State) : Kept s (s.emptyTx keep) := by
  refine Kept.trans ?_ (.outcomes ..)
  refine .onLine fun k l => ⟨?_, l⟩
  simpa using (List.length_filter_le _ _).trans k

theorem Kept.endAttempt (b : Bool) (s : State) : Kept s (s.endAttempt b) := by
  unfold State.endAttempt
  split
  · exact .refl s
  · refine Kept.trans ?_ (.outcome ..)
    exact .onLine fun k l => ⟨(List.length_filter_le _ _).trans k, l⟩

theorem Kept.loseAttempt (s : State) : Kept s s.loseAttempt := by
  unfold State.loseAttempt
  split
  · exact .refl s
  · split
    · exact .endAttempt ..
    · exact .onLine fun k l => ⟨by simpa using k, l⟩

/-! ## The engine -/

theorem Kept.offerReport (s : State) : Kept s s.offerReport := by
  unfold State.offerReport
  split
  · exact .refl s
  · refine Kept.trans ?_ (.offer ..)
    split
    · exact .refl s
    · exact .onEngine ..

theorem Kept.enterFree (s : State) : Kept s s.enterFree :=
  (Kept.onClock ..).trans (.onCues ..)

theorem Kept.clockExit (s : State) : Kept s s.clockExit := by
  unfold State.clockExit
  split
  · exact .ite (fun _ => .refl s) (fun _ => .enterFree s)
  · exact .ite (fun _ => .refl s) (fun _ => .enterFree s)
  all_goals exact .refl s

theorem Kept.enterNode (ns : NodeState) (s : State) : Kept s (s.enterNode ns) := by
  unfold State.enterNode
  have h1 : Kept s (s.onEngine fun e => { e with nodeState := ns }) := .onEngine ..
  refine Kept.ite (fun _ => ?_) (fun _ => ?_)
  · refine Kept.trans ?_ (.offerReport ..)
    refine Kept.trans ?_ (.clockExit ..)
    exact .ite (fun _ => h1.trans (.onCues ..)) (fun _ => h1)
  · refine Kept.trans ?_ (.clockExit ..)
    exact .ite (fun _ => h1.trans (.onCues ..)) (fun _ => h1)

theorem Kept.judgeArm (s : State) : Kept s s.judgeArm := by
  unfold State.judgeArm
  split
  · exact .ite (fun _ => .enterNode ..) (fun _ => .refl s)
  · exact .ite (fun _ => .refl s) (fun _ => .enterNode ..)
  · exact .ite (fun _ => .refl s) (fun _ => (Kept.offer ..).trans (.enterNode ..))
  all_goals exact .refl s

theorem Kept.disarm (s : State) : Kept s s.disarm :=
  ((Kept.onEngine ..).trans (.note ..)).trans (.enterNode ..)

theorem Kept.ownHaltEvent (c : Byte) (s : State) : Kept s (s.ownHaltEvent c) := by
  unfold State.ownHaltEvent
  split
  · exact .refl s
  · exact (Kept.onEngine ..).trans ((Kept.onEngine ..).trans (.offer ..))

theorem Kept.haltRig (c : Cause) (s : State) : Kept s (s.haltRig c) := by
  unfold State.haltRig
  split
  · exact .ownHaltEvent ..
  · exact (Kept.offer ..).trans (.disarm ..)
  · exact .disarm s
  · exact .onEngine ..
  · exact .onEngine ..
  all_goals exact .refl s

theorem Kept.abandonLoad (s : State) : Kept s s.abandonLoad := by
  unfold State.abandonLoad
  split
  · exact .onStore id
  · split
    · exact (Kept.onStore (f := MoveStore.discard) id).trans (.offer ..)
    · exact .onStore id
  all_goals exact .refl s

theorem Kept.endWatch (s : State) : Kept s s.endWatch := .onRoster fun h => by simpa using h

theorem updateNewest_length (f) (h : List Summary) : (updateNewest f h).length = h.length := by
  induction h with
  | nil => rfl
  | cons x h ih => cases h <;> simp_all [updateNewest]

theorem Kept.registerEnd (e : PassEnding) (c : Option HaltCause) (s : State) :
    Kept s (s.registerEnd e c) := by
  refine .onReg (fun h k => ?_) (fun h k => ?_) <;>
    · simp only [Registration.passEnded, Registration.setCapture, Registration.swap,
        Registration.setReference, Registration.capture, Registration.reference]
      repeat' split
      all_goals simp_all [updateNewest_length]

theorem Kept.offPath (s : State) : Kept s s.offPath := .onEngine ..

theorem Kept.holdAtCommanded (s : State) : Kept s s.holdAtCommanded := .onEngine ..

theorem Kept.stopAxes (s : State) : Kept s s.stopAxes := by
  unfold State.stopAxes
  exact ((Kept.onAxes ..).trans (.holdAtCommanded _)).trans (.offPath _)

theorem Kept.stopNow (c : Cause) (s : State) : Kept s (s.stopNow c) := by
  have hs := Kept.stopAxes s
  have he : ∀ t : State, Kept t t.enterStopped := fun t => (Kept.onEngine ..).trans (.enterNode ..)
  have hp : ∀ t : State, Kept s t →
      Kept s ((t.registerEnd .stopped (some ⟨c.byte, s.ownNumber⟩)).endWatch).enterStopped :=
    fun t h => ((h.trans (.registerEnd ..)).trans (.endWatch ..)).trans (he _)
  have hh : ∀ t : State, ∀ r b, Kept t (t.offerHalt r b) := fun t r b =>
    (Kept.onEngine ..).trans (.offer ..)
  unfold State.stopNow
  split
  · refine hp _ ?_
    split
    · exact hs
    · exact hs.trans (hh ..)
  · refine hp _ ?_
    split
    · exact hs
    · exact hs.trans (hh ..)
  · exact (hs.trans ((Kept.offer ..).trans (.note ..))).trans (he _)
  · exact (hs.trans ((Kept.offer ..).trans (.note ..))).trans (he _)
  iterate 5 exact (hs.trans (.offer ..)).trans (he _)
  · exact ((hs.trans (.offer ..)).trans (he _)).trans (.abandonLoad _)
  · exact hs
  all_goals exact hs.trans (.onRoster id)

@[simp] theorem Supervision.addAxis_counters (u : Supervision) (c a) :
    (u.addAxis c a).counters = u.counters := by
  unfold addAxis; split <;> rfl

@[simp] theorem Supervision.addOrigin_counters (u : Supervision) (c n) :
    (u.addOrigin c n).counters = u.counters := by
  unfold addOrigin; split
  · split <;> rfl
  · rfl

theorem Kept.latch (c : Cause) (a n) (s : State) : Kept s (s.latch c a n) :=
  .onSup (by simp [Supervision.latch])

/-- All that raising a cause keeps. -/
theorem Kept.raise (c : Cause) (a n) (s : State) : Kept s (s.raise c a n) := by
  unfold State.raise
  dsimp only
  split
  · exact .latch ..
  · exact (Kept.latch ..).trans (.haltRig ..)
  · exact (Kept.latch ..).trans (.stopNow ..)

end Sys2Proof.Machine
end

