-- ==== Sys2Proof/Laws/KeptOps.lean ====
section
/-! SUPPORT. What the engine, axis, clock, slew, roster and line operations keep (`Kept`), from the
lemmas of Laws/Kept.lean. -/

namespace Sys2Proof.Machine

/-! ## The engine and its evaluations -/

theorem Kept.offerDecline (f r) (s : State) : Kept s (s.offerDecline f r) := .offer ..

theorem Kept.offerReply (r c m x) (s : State) : Kept s (s.offerReply r c m x) := .offer ..

theorem Kept.answer (r c) (s : State) : Kept s (s.answer r c) := .offer ..

theorem Kept.refuse (r m) (s : State) : Kept s (s.refuse r m) := .offer ..

theorem Kept.onPathAt (t c) (s : State) : Kept s (s.onPathAt t c) := .onEngine ..

theorem Kept.enterArmedOrIdle (s : State) : Kept s s.enterArmedOrIdle := .enterNode ..

theorem Kept.raiseLineFault (s : State) : Kept s s.raiseLineFault :=
  .ite (fun _ => .raise ..) (fun _ => .refl s)

theorem Kept.spendFree (n : Nat) (s : State) : Kept s (s.spendFree n) :=
  ⟨rfl, rfl, rfl, Nat.le_refl _, id, id, id, id, id⟩

theorem Kept.writeException (x) (s : State) : Kept s (s.writeException x) := .onSup rfl

theorem Kept.recordException (c a k o n) (s : State) : Kept s (s.recordException c a k o n) := by
  unfold State.recordException
  refine .ite (fun _ => ?_) (fun _ => .refl s)
  split
  · exact .writeException ..
  · exact (Kept.writeException ..).trans (.spendFree ..)

theorem Kept.arithException (c a k o n) (s : State) : Kept s (s.arithException c a k o n) :=
  ((Kept.raise ..).trans (.recordException ..)).trans (.onSup rfl)

theorem Kept.raiseAxisEval (a ev o n) (s : State) : Kept s (s.raiseAxisEval a ev o n) := by
  unfold State.raiseAxisEval
  dsimp only
  have h1 : Kept s (if ev.overflowEval then s.arithException .overflowEval a ev.keyIndex o n else s) :=
    .ite (fun _ => .arithException ..) (fun _ => .refl s)
  have h2 := fun t : State => (Kept.ite (p := ev.overflowScale = true)
    (fun _ => .arithException .overflowScale a ev.keyIndex o n t) (fun _ => .refl t))
  exact (h1.trans (h2 _)).trans (.ite (fun _ => .raise ..) (fun _ => .refl _))

theorem Kept.raiseEval (evs o n) (s : State) : Kept s (s.raiseEval evs o n) := by
  unfold State.raiseEval
  exact .foldl (fun s a => by split; exacts [.raiseAxisEval .., .refl s]) _ s

/-! ## Level and cue unit -/

theorem Kept.computeDuty (c) (s : State) : Kept s (s.computeDuty c) := by
  unfold State.computeDuty
  exact .onLevel ..

theorem Kept.computeDuties (s : State) : Kept s s.computeDuties :=
  (Kept.computeDuty 0 s).trans (.computeDuty 1 _)

theorem Kept.takeLevel (c v x) (s : State) : Kept s (s.takeLevel c v x) :=
  (Kept.onLevel ..).trans (.computeDuty ..)

theorem Kept.evaluateLevels (t) (s : State) : Kept s (s.evaluateLevels t) := by
  unfold State.evaluateLevels
  exact .foldl (fun s c => by split; exacts [.takeLevel .., .refl s]) _ s

theorem Kept.withCues (c) (s : State) : Kept s { s with cues := c } :=
  ⟨rfl, rfl, rfl, Nat.le_refl _, id, id, id, id, id⟩

theorem Kept.applyEntries (es) (s : State) : Kept s (s.applyEntries es) := .withCues ..

theorem Kept.takeRestLevels (m) (s : State) : Kept s (s.takeRestLevels m) := .withCues ..

/-! ## Axis channels -/

theorem Kept.followingCheck (a) (s : State) : Kept s (s.followingCheck a) := by
  unfold State.followingCheck
  refine .ite (fun _ => .refl s) (fun _ => .ite (fun _ => ?_) (fun _ => .refl s))
  split
  · exact .ite (fun _ => .raise ..) (fun _ => .refl s)
  · exact .refl s

theorem Kept.suppress (a) (s : State) : Kept s (s.suppress a) := by
  unfold State.suppress
  dsimp only
  have h1 := Kept.ite (p := s.sup.driveInForce a = true)
    (fun _ => .onAxis a (fun x => { x with plan := none }) s) (fun _ => .refl s)
  have h2 := fun (p : Prop) [Decidable p] (i : Bool) (t : State) =>
    Kept.ite (p := p) (fun _ => .onAxis a (AxisChannel.dropPulses i) t) (fun _ => .refl t)
  exact (h1.trans (h2 ..)).trans (h2 ..)

theorem Kept.handTarget (a v d) (s : State) : Kept s (s.handTarget a v d) := by
  unfold State.handTarget
  dsimp only
  refine (Kept.followingCheck a s).trans (.ite (fun _ => .refl _) (fun _ => ?_))
  refine Kept.trans ?_ (.suppress ..)
  refine Kept.trans ?_ (.onAxis ..)
  split
  · exact (Kept.onAxis ..).trans (.raise ..)
  all_goals exact .refl _

theorem Kept.handHeld (a v d) (s : State) : Kept s (s.handHeld a v d) :=
  (Kept.onEngine ..).trans (.handTarget ..)

theorem Kept.rehand (a) (s : State) : Kept s (s.rehand a) :=
  .ite (fun _ => .handTarget ..) (fun _ => .followingCheck ..)

theorem Kept.onCapture {f : Registration → Registration} {s : State}
    (h : ∀ r : Registration, r.buffer1.frames.wf = true → r.buffer2.frames.wf = true →
      (f r).buffer1.frames.wf = true ∧ (f r).buffer2.frames.wf = true)
    (hd : ∀ r : Registration, (f r).deviations = r.deviations)
    (hh : ∀ r : Registration, (f r).history.length = r.history.length) : Kept s (s.onReg f) :=
  .onReg (h _) (fun k l => by rw [hd, hh]; exact ⟨k, l⟩)

/-- The capture buffer in place of the one in the capture role. -/
theorem Registration.setCapture_frames (b : CaptureBuffer) (r : Registration)
    (h1 : r.buffer1.frames.wf = true) (h2 : r.buffer2.frames.wf = true)
    (hb : b.frames.wf = true) :
    (r.setCapture b).buffer1.frames.wf = true ∧ (r.setCapture b).buffer2.frames.wf = true := by
  unfold setCapture
  split <;> simp_all

theorem Registration.capture_frames (r : Registration) (h1 : r.buffer1.frames.wf = true)
    (h2 : r.buffer2.frames.wf = true) : r.capture.frames.wf = true := by
  unfold capture; split <;> assumption

@[simp] theorem Registration.setCapture_deviations (b) (r : Registration) :
    (r.setCapture b).deviations = r.deviations := by unfold setCapture; split <;> rfl

@[simp] theorem Registration.setCapture_history (b) (r : Registration) :
    (r.setCapture b).history = r.history := by unfold setCapture; split <;> rfl

theorem Kept.clearRow (n) (s : State) : Kept s (s.onReg (.clearRow n)) :=
  .onCapture (fun r h k => r.setCapture_frames _ h k (Cells.wf_write _ _ _ (r.capture_frames h k)))
    (fun r => by simp [Registration.clearRow]) (fun r => by simp [Registration.clearRow])

theorem Kept.frameRecorded (n) (s : State) : Kept s (s.onReg (.frameRecorded n)) :=
  .onCapture (fun r h k => r.setCapture_frames _ h k (r.capture_frames h k))
    (fun r => by simp [Registration.frameRecorded]) (fun r => by simp [Registration.frameRecorded])

theorem Registration.write_frames (n a m) (r : Registration) (h1 : r.buffer1.frames.wf = true)
    (h2 : r.buffer2.frames.wf = true) :
    (r.write n a m).buffer1.frames.wf = true ∧ (r.write n a m).buffer2.frames.wf = true := by
  unfold write
  dsimp only
  split <;>
    exact r.setCapture_frames _ h1 h2 (Cells.wf_write _ _ _ (r.capture_frames h1 h2))

theorem Registration.write_lists (n a m) (r : Registration) :
    (r.write n a m).deviations = r.deviations ∧ (r.write n a m).history = r.history := by
  unfold write
  dsimp only
  split <;> simp

theorem Registration.addDeviation_keeps (e) (r : Registration) :
    (r.addDeviation e).buffer1 = r.buffer1 ∧ (r.addDeviation e).buffer2 = r.buffer2 ∧
      (r.addDeviation e).history = r.history ∧
      (r.deviations.length ≤ 64 → (r.addDeviation e).deviations.length ≤ 64) := by
  unfold addDeviation Config.deviationCapacity
  split
  · refine ⟨rfl, rfl, rfl, fun _ => ?_⟩
    simp
    omega
  · exact ⟨rfl, rfl, rfl, id⟩

theorem Registration.compare_keeps (t n a m) (r : Registration) :
    (r.compare t n a m).1.buffer1 = r.buffer1 ∧ (r.compare t n a m).1.buffer2 = r.buffer2 ∧
      (r.compare t n a m).1.history = r.history ∧
      (r.deviations.length ≤ 64 → (r.compare t n a m).1.deviations.length ≤ 64) := by
  unfold compare
  split
  · next v _ =>
    split
    · dsimp only
      split
      · exact ⟨rfl, rfl, rfl, id⟩
      · next g _ =>
        have h := addDeviation_keeps ⟨n, a, m.value - v, g⟩ { r with
          comparisons := r.comparisons + 1
          maxima := r.maxima.set a (r.maxima[a].update n (m.value - v)) }
        split <;> exact h
    · exact ⟨rfl, rfl, rfl, id⟩
  · exact ⟨rfl, rfl, rfl, id⟩

theorem Kept.takeMidpoint (n a m) (s : State) : Kept s (s.takeMidpoint n a m) := by
  unfold State.takeMidpoint
  refine .ite (fun _ => .refl s) (fun _ => .ite (fun _ => .note ..) (fun _ => ?_))
  dsimp only
  have h : Kept s (s.onReg fun _ =>
      ((s.reg.write n a m).compare (s.store.tolerance a) n a m).1) := by
    refine .onReg (fun h k => ?_) (fun h k => ⟨?_, ?_⟩)
    · rw [(Registration.compare_keeps ..).1, (Registration.compare_keeps ..).2.1]
      exact Registration.write_frames _ _ _ _ h k
    · exact (Registration.compare_keeps ..).2.2.2 (by rw [(Registration.write_lists ..).1]; exact h)
    · rw [(Registration.compare_keeps ..).2.2.1, (Registration.write_lists ..).2]; exact k
  exact h.trans (.ite (fun _ => .raise ..) (fun _ => .refl _))

theorem Kept.takeMidpoints (ms) (s : State) : Kept s (s.takeMidpoints ms) := by
  unfold State.takeMidpoints
  split
  · refine .ite (fun _ => .refl s) (fun _ => ?_)
    dsimp only
    refine Kept.trans ?_ (.ite (fun _ => .frameRecorded ..) (fun _ => .refl _))
    refine Kept.trans ?_ (.foldl (fun s a => by split; exacts [.takeMidpoint .., .refl s]) _ _)
    exact .ite (fun _ => .clearRow _ s) (fun _ => .refl s)
  · exact .refl s

theorem Kept.exposureOpen (o) (s : State) : Kept s (s.exposureOpen o) :=
  ((Kept.onClock ..).trans (.onAxes ..)).trans (.takeMidpoints ..)

theorem Kept.exposureReopen (s : State) : Kept s s.exposureReopen :=
  (Kept.onClock ..).trans (.onAxes ..)

theorem Kept.exposureClose (s : State) : Kept s s.exposureClose :=
  ((Kept.onClock ..).trans (.onAxes ..)).trans (.takeMidpoints ..)

/-! ## Pass ticks -/

theorem missingChecks_length (k n i) (es : List RosterEntry) :
    (missingChecks k n i es).1.length = es.length := by
  induction es generalizing i with
  | nil => rfl
  | cons e es ih => simp only [missingChecks]; split <;> simp [ih]

theorem Kept.checkMissing (s : State) : Kept s s.checkMissing := by
  unfold State.checkMissing
  split
  · refine Kept.trans (.onRoster fun h => ?_) (.foldl (fun s i => .raise ..) _ _)
    simpa [missingChecks_length] using h
  · exact .refl s

theorem Kept.reportIfDue (s : State) : Kept s s.reportIfDue := by
  unfold State.reportIfDue
  split
  · exact .ite (fun _ => .offerReport ..) (fun _ => .refl s)
  · exact .refl s

theorem Kept.endPassEnded (p) (s : State) : Kept s (s.endPassEnded p) := by
  unfold State.endPassEnded
  refine Kept.trans ?_ (.enterNode ..)
  refine Kept.trans ?_ (.onEngine ..)
  refine Kept.trans ?_ (.endWatch ..)
  exact (Kept.onPathAt ..).trans (.registerEnd ..)

theorem Kept.endPassHalted (p) (s : State) : Kept s (s.endPassHalted p) := by
  unfold State.endPassHalted
  refine Kept.trans ?_ (.enterNode ..)
  refine Kept.trans ?_ (.endWatch ..)
  exact (Kept.onPathAt ..).trans (.registerEnd ..)

theorem Kept.tickWork (p i d) (s : State) : Kept s (s.tickWork p i d) := by
  unfold State.tickWork
  dsimp only
  refine Kept.trans ?_ (.applyEntries ..)
  refine Kept.trans ?_ (.ite (fun _ => .evaluateLevels ..) (fun _ => .refl _))
  refine Kept.trans ?_ (.foldl (fun s a => by split; exacts [.handHeld .., .refl s]) _ _)
  exact .raiseEval ..

theorem Kept.runningTick (p i d) (s : State) : Kept s (s.runningTick p i d) :=
  (Kept.onEngine ..).trans <| (Kept.tickWork ..).trans <|
    .ite (fun _ => .endPassEnded ..) (fun _ => .reportIfDue ..)

theorem Kept.rampTick (p r i d) (s : State) : Kept s (s.rampTick p r i d) :=
  (Kept.ite (fun _ => .refl s) (fun _ => .enterNode .halting s)).trans <| (Kept.onEngine ..).trans <|
    (Kept.tickWork ..).trans <| .ite (fun _ => .endPassHalted ..) (fun _ => .reportIfDue ..)

theorem Kept.passWork (i d) (s : State) : Kept s (s.passWork i d) := by
  unfold State.passWork
  split
  · dsimp only
    refine Kept.trans ?_ (.ite (fun _ => .checkMissing ..) (fun _ => .refl _))
    refine (Kept.onEngine (Engine.takeTick d) s).trans ?_
    split
    · exact .ite (fun _ => .rampTick ..) (fun _ => .runningTick ..)
    · exact .runningTick ..
  · exact .refl s

theorem Kept.takePassTick (i d) (s : State) : Kept s (s.takePassTick i d) :=
  (Kept.onCues ..).trans (.ite (fun _ => .passWork ..) (fun _ => .refl _))

theorem Kept.issueTick (i) (s : State) : Kept s (s.issueTick i) :=
  (Kept.onClock ..).trans (.takePassTick ..)

theorem Kept.catchUp (n) (s : State) : Kept s (s.catchUp n) := by
  induction n generalizing s with
  | zero => exact .refl s
  | succ n ih =>
    unfold State.catchUp
    split
    · exact (Kept.issueTick ..).trans (ih _)
    · exact .refl s

/-! ## The frame clock -/

theorem watchOthers_length (o i) (es : List RosterEntry) :
    (watchOthers o i es).length = es.length := by
  induction es generalizing i with
  | nil => rfl
  | cons e es ih => simp [watchOthers, ih]

theorem addSummary_length (x) (h : List Summary) (k : h.length ≤ 8) :
    (addSummary x h).length ≤ 8 := by
  unfold addSummary Config.historyCapacity
  split <;> simp <;> omega

theorem Kept.passBegun (n f r c) (s : State) : Kept s (s.onReg (.passBegun n f r c)) := by
  refine .onReg (fun h k => ?_) (fun h k => ⟨Nat.zero_le _, ?_⟩)
  · exact s.reg.setCapture_frames _ h k (s.reg.capture_frames h k)
  · simp only [Registration.passBegun, Registration.setCapture_history]
    exact addSummary_length _ _ k

theorem Kept.beginPass (p) (s : State) : Kept s (s.beginPass p) := by
  unfold State.beginPass
  dsimp only
  refine Kept.trans ?_ (.enterNode ..)
  refine Kept.trans ?_ (.passBegun ..)
  refine Kept.trans ?_ (.onRoster fun h => by simpa [watchOthers_length] using h)
  refine Kept.trans ?_ (.onLine fun k l => ⟨by simpa using k, l⟩)
  exact .onEngine ..

theorem Kept.engineMark (s : State) : Kept s s.engineMark := by
  unfold State.engineMark
  refine .ite (fun _ => ?_) (fun _ => ?_)
  · refine .onCapture (fun r => ?_) (fun r => ?_) (fun r => ?_) <;>
      · unfold Registration.frameAdvanced
        split <;> simp_all
  · split
    · exact .ite (fun _ => .beginPass ..) (fun _ => .refl s)
    · exact .refl s

/-- A counted mark keeps what its own change of the clock keeps. -/
theorem Kept.countMark (o r) {f : State → State} (h : ∀ s, Kept s (f s)) (s : State) :
    Kept s (s.countMark o r f) :=
  (Kept.onClock ..).trans <| (Kept.exposureOpen ..).trans <| (h _).trans <|
    (Kept.engineMark ..).trans <| .ite (fun _ => .issueTick ..) (fun _ => .refl _)

theorem Kept.enterAcquiring (f) (s : State) : Kept s (s.enterAcquiring f) :=
  ((Kept.onClock ..).trans (.onCues ..)).trans (.judgeArm ..)

theorem Kept.markFree (m r) (s : State) : Kept s (s.markFree m r) :=
  .countMark _ _ (fun s => .enterAcquiring _ s) s

theorem Kept.adoptAcquired (m) (s : State) : Kept s (s.adoptAcquired m) :=
  .ite (fun _ => ((Kept.onClock ..).trans (.note ..)).trans (.judgeArm ..)) (fun _ => .onClock ..)

theorem Kept.unlockOutside (m d r) (s : State) : Kept s (s.unlockOutside m d r) :=
  .countMark _ _ (fun s => .enterAcquiring _ s) s

theorem Kept.markLocked (m r) (s : State) : Kept s (s.markLocked m r) := by
  unfold State.markLocked
  refine .ite (fun _ => .count ..) (fun _ => .ite (fun _ => ?_) (fun _ => ?_))
  · exact (Kept.catchUp ..).trans (.countMark _ _ (fun s => .onClock _ s) _)
  · unfold State.trackingFailure
    dsimp only
    refine .ite (fun _ => ?_) (fun _ => ?_)
    · refine Kept.trans ?_ (.raise ..)
      refine Kept.trans ?_ (.onClock ..)
      exact (Kept.onClock ..).trans (.note ..)
    · refine Kept.trans ?_ (.unlockOutside ..)
      exact (Kept.onClock ..).trans (.note ..)

theorem Kept.relock (m o) (s : State) : Kept s (s.relock m o) := .onClock ..

theorem Kept.markHoldover (m r) (s : State) : Kept s (s.markHoldover m r) := by
  unfold State.markHoldover
  refine .ite (fun _ => ?_) (fun _ => ?_)
  · exact (((Kept.onClock ..).trans (.relock ..)).trans (.exposureReopen _)).trans (.judgeArm _)
  · exact (Kept.catchUp ..).trans
      (.countMark _ _ (fun s => (Kept.relock _ _ s).trans (.judgeArm _)) _)

theorem Kept.realMark (r) (s : State) : Kept s (s.realMark r) := by
  unfold State.realMark
  refine (Kept.onClock (fun c => { c with lastMark := s.now }) s).trans ?_
  dsimp only
  split
  · exact .markFree ..
  · exact .countMark _ _ (fun s => .adoptAcquired _ s) _
  · exact .markLocked ..
  · exact .markHoldover ..
  · exact .refl _
  · exact .ite (fun _ => .count ..) (fun _ => (Kept.enterFree _).trans (.markFree ..))

theorem Kept.adoptSynthesized (d) (s : State) : Kept s (s.adoptSynthesized d) := by
  unfold State.adoptSynthesized
  refine ((Kept.onClock (fun c => { c with
    timingBase := some d, origin := .synthesized, missedRun := c.missedRun + 1 }) s).trans
    (.count .missedMarks _)).trans ?_
  refine .ite (fun _ => (Kept.onClock ..).trans (.judgeArm _)) (fun _ => ?_)
  refine (Kept.raise .markLost none none _).trans (.ite (fun _ => .onClock ..) (fun _ => ?_))
  exact (Kept.enterFree _).trans (.judgeArm _)

theorem Kept.ownMark (c o d) (s : State) : Kept s (s.ownMark c o d) :=
  (Kept.catchUp ..).trans
    (.ite (fun _ => .countMark _ _ (fun s => .onClock _ s) _) (fun _ => .refl _))

/-! ## Slews -/

theorem Kept.followingChecks (s : State) : Kept s s.followingChecks := by
  unfold State.followingChecks
  exact .foldl (fun s a => .followingCheck ..) _ s

theorem Kept.restAxes (s : State) : Kept s s.restAxes :=
  ((Kept.holdAtCommanded s).trans (.onEngine ..)).trans (.enterNode ..)

theorem Kept.completeAxes (k t c) (s : State) : Kept s (s.completeAxes k t c) := by
  unfold State.completeAxes
  refine (Kept.onEngine (fun e => { e with slew := none }) s).trans ?_
  dsimp only
  split
  · exact ((Kept.onPathAt ..).trans (.evaluateLevels ..)).trans (.enterArmedOrIdle _)
  · exact ((Kept.onPathAt ..).trans (.evaluateLevels ..)).trans (.enterArmedOrIdle _)
  · exact .enterNode ..

theorem Kept.handAxes (p) (s : State) : Kept s (s.handAxes p) := by
  unfold State.handAxes
  exact .foldl (fun s a => .ite (fun _ => .handTarget ..) (fun _ => .rehand ..)) _ s

theorem Kept.formTargets (p m) (s : State) : Kept s (s.formTargets p m) := .onEngine ..

theorem Kept.setReturn (q n d) (s : State) : Kept s (s.setReturn q n d) := .onEngine ..

theorem Kept.axisSlewTick (k t c m) (s : State) : Kept s (s.axisSlewTick k t c m) := by
  unfold State.axisSlewTick
  dsimp only
  refine .ite (fun _ => .ite (fun _ => ?_) (fun _ => ?_)) (fun _ => ?_)
  · exact ((Kept.formTargets ..).trans (.completeAxes ..)).trans (.followingChecks _)
  · exact ((Kept.formTargets ..).trans (.handAxes ..)).trans
      (.ite (fun _ => .restAxes _) (fun _ => .refl _))
  · exact ((Kept.onEngine ..).trans (.onEngine ..)).trans (.handAxes ..)

theorem Kept.brakeSlewTick (k t c m) (s : State) : Kept s (s.brakeSlewTick k t c m) := by
  unfold State.brakeSlewTick
  dsimp only
  refine Kept.trans ?_ (.ite (fun _ => .restAxes _) (fun _ => .refl _))
  exact ((Kept.onEngine ..).trans (.formTargets ..)).trans (.handAxes ..)

theorem Kept.completeReturn (s : State) : Kept s s.completeReturn :=
  ((Kept.onPathAt ..).trans (.onEngine ..)).trans (.enterArmedOrIdle _)

theorem Kept.restReturn (s : State) : Kept s s.restReturn := by
  unfold State.restReturn
  dsimp only
  refine Kept.trans ?_ (.enterNode ..)
  refine Kept.trans ?_ (.onEngine ..)
  refine Kept.trans ?_ (.evaluateLevels ..)
  exact (Kept.holdAtCommanded s).trans (.onPathAt ..)

theorem Kept.finishReturn {s t : State} (h : s.finishReturn = some t) : Kept s t := by
  unfold State.finishReturn at h
  split at h
  · cases h; exact .completeReturn s
  · split at h <;> cases h
    exact .restReturn s

theorem Kept.getD {s : State} {o : Option State} (h : ∀ t, o = some t → Kept s t) :
    Kept s (o.getD s) := by
  cases o with
  | none => exact .refl s
  | some t => exact h t rfl

theorem Kept.returnWork (t n) (s : State) : Kept s (s.returnWork t n) := by
  unfold State.returnWork
  refine Kept.trans ?_ (.foldl (fun s a => by split; exacts [.handHeld .., .refl s]) _ _)
  exact .raiseEval ..

theorem Kept.returnTick (q n) (s : State) : Kept s (s.returnTick q n) := by
  unfold State.returnTick
  dsimp only
  refine .ite (fun _ => ?_) (fun _ => ?_)
  · refine (Kept.setReturn q (n + 1) false s).trans ?_
    split
    · next h => exact (Kept.finishReturn h).trans (.followingChecks _)
    · exact .foldl (fun s a => .ite (fun _ => .rehand ..) (fun _ => .refl s)) _ _
  · have h := ((Kept.setReturn q.advance (n + 1) false s).trans
      (.returnWork q.advance.value.toNat (n + 1) _)).trans
      (Kept.ite (p := (n + 1) % 16 = 0 ∨ q.advance.distance = 0)
        (fun _ => .evaluateLevels q.advance.value.toNat _) (fun _ => .refl _))
    refine .ite (fun _ => h.trans (.getD ?_)) (fun _ => h)
    exact fun _ => Kept.finishReturn

theorem Kept.brakeReturnTick (q n) (s : State) : Kept s (s.brakeReturnTick q n) :=
  ((Kept.onEngine _ s).trans (.returnWork ..)).trans <|
    (Kept.ite (fun _ => .evaluateLevels ..) (fun _ => .refl _)).trans <|
    .ite (fun _ => .restReturn _) (fun _ => .refl _)

theorem Kept.slewWork (s : State) : Kept s s.slewWork := by
  unfold State.slewWork
  split
  · exact .refl s
  · exact .refl s
  · exact .followingChecks s
  · split
    · exact .axisSlewTick ..
    · exact .brakeSlewTick ..
    · exact .refl s
    · exact .refl s
  · split
    · exact .returnTick ..
    · exact .brakeReturnTick ..
    · exact .refl s
    · exact .refl s
  all_goals exact .handAxes ..

/-! ## The roster -/

theorem insertEntry_length (e) (es : List RosterEntry) :
    (insertEntry e es).length = es.length + 1 := by
  induction es with
  | nil => rfl
  | cons x es ih => simp only [insertEntry]; split <;> simp [ih]

theorem Roster.hear_length (o n e) (r : Roster) (h : r.table.length ≤ 24) :
    (r.hear o n e).table.length ≤ 24 := by
  unfold hear Config.rosterCapacity
  dsimp only
  split
  · exact h
  · dsimp only
    split <;> simp [insertEntry_length] <;> omega

theorem Kept.enterResume (s : State) : Kept s s.enterResume := by
  unfold State.enterResume
  split
  · exact .enterArmedOrIdle s
  · exact (Kept.holdAtCommanded s).trans (.enterNode ..)
  · exact .enterNode ..

theorem Kept.closeRoster (s : State) : Kept s s.closeRoster := by
  unfold State.closeRoster
  refine (Kept.onRoster (f := fun r => { r with phase := .closed, schedule := .done }) id).trans ?_
  dsimp only
  split
  · exact (Kept.enterResume _).trans (.offer ..)
  · exact (Kept.enterNode ..).trans (.emptyTx ..)

theorem Kept.closeIfQuiet (s : State) : Kept s s.closeIfQuiet :=
  .ite (fun _ => .closeRoster s) (fun _ => .refl s)

theorem Kept.keepStopped (s : State) : Kept s s.keepStopped := .onRoster id

theorem Kept.reopen (s : State) : Kept s s.reopen := by
  unfold State.reopen
  dsimp only
  refine Kept.trans ?_ (.abandonLoad _)
  refine Kept.trans ?_ (.enterNode ..)
  refine Kept.trans ?_ (.onEngine ..)
  refine Kept.trans ?_ (.onRoster fun _ => ?_)
  · exact ((Kept.keepStopped s).trans (.emptyTx ..)).trans (.onLine fun h _ => ⟨h, Nat.zero_le _⟩)
  · simp only [Roster.reopened, drawAnnounceDelay]
    split <;> simp [Roster.reset]

theorem Kept.onEntry (i f) (s : State) : Kept s (s.onEntry i f) :=
  .onRoster fun h => by simpa using h

theorem Kept.checkAlignment (i r) (s : State) : Kept s (s.checkAlignment i r) := by
  unfold State.checkAlignment
  refine .ite (fun _ => .onEntry ..) (fun _ => ?_)
  exact ((Kept.count ..).trans (.onEntry ..)).trans
    (.ite (fun _ => .raise ..) (fun _ => .refl _))

theorem Kept.watch (i f) (s : State) : Kept s (s.watch i f) := by
  have hp : ∀ b (t : State), Kept t (t.peerHalted i b) := fun b t =>
    .ite (fun _ => .raise ..) (fun _ => .refl t)
  unfold State.watch
  dsimp only
  split
  · exact .refl s
  · exact .checkAlignment ..
  · exact (Kept.checkAlignment ..).trans (hp ..)
  · exact (Kept.onEntry ..).trans (hp ..)
  · exact .onEntry ..
  · exact (Kept.onEntry ..).trans (.raise ..)

theorem Kept.takeReport (i f) (s : State) : Kept s (s.takeReport i f) := by
  unfold State.takeReport
  split
  · exact .refl s
  · refine .ite (fun _ => .refl s) (fun _ => ?_)
    exact (Kept.onEntry ..).trans (.ite (fun _ => .watch ..) (fun _ => .refl _))

/-! ## The line interface -/

theorem Kept.setLine (l) (s : State) : Kept s (s.setLine l) := .onLine fun h k => ⟨h, k⟩

theorem Kept.readLine (b n) (s : State) : Kept s (s.readLine b n) :=
  .onLine fun h k => by simpa [LineInterface.readRun_eq] using ⟨h, k⟩

theorem Kept.drive (b) (s : State) : Kept s (s.drive b) := .onLine fun h k => ⟨h, k⟩

theorem Kept.enterWaitQuiet (s : State) : Kept s s.enterWaitQuiet := .onLine fun h k => ⟨h, k⟩

theorem Kept.drawDelay (n) (s : State) : Kept s (s.onRoster (drawAnnounceDelay n)) :=
  .onRoster fun h => h

theorem Kept.enterLineIdle (s : State) : Kept s s.enterLineIdle :=
  (Kept.setLine ..).trans (.ite (fun _ => .drawDelay ..) (fun _ => .refl _))

theorem Kept.inLine (l t) {f : State → State} (h : ∀ s, Kept s (f s)) (s : State) :
    Kept s (s.inLine l t f) :=
  .ite (fun _ => (Kept.reach ..).trans (h _)) (fun _ => .refl s)

theorem Kept.arrive (t) {f : State → State} (h : ∀ s, Kept s (f s)) (s : State) :
    Kept s (s.arrive t f) :=
  .inLine _ _ (fun _ => ((Kept.readLine ..).trans (.setLine ..)).trans (h _)) s

theorem Kept.ifLength (p n) {f : State → State} {s : State} (h : Kept s (f s)) :
    Kept s (s.ifLength p n f) :=
  .ite (fun _ => h) (fun _ => .count ..)

theorem Kept.ifTaken (p) {f : Byte → List Byte → State → State} (h : ∀ t b s, Kept s (f t b s))
    (s : State) : Kept s (s.ifTaken p f) := by
  unfold State.ifTaken
  split
  · exact .count ..
  · exact .ite (fun _ => h ..) (fun _ => .refl s)

theorem Kept.joinRequests (r) (s : State) : Kept s (s.joinRequests r) := by
  unfold State.joinRequests
  split
  · next q =>
    refine .onLine fun h k => ⟨h, ?_⟩
    simp only [Config.requestCapacity, List.length_append, List.length_singleton] at q ⊢
    omega
  · exact .count ..

theorem Kept.resetFlush (s : State) : Kept s s.resetFlush :=
  (Kept.emptyTx ..).trans <|
    (Kept.onLine (f := fun l => { l with requestQueue := [], flushDue := false })
      fun h _ => ⟨h, Nat.zero_le _⟩).trans (.offerReport _)

theorem Kept.countClash (s : State) : Kept s s.countClash := by
  unfold State.countClash
  dsimp only
  have h : ∀ (n : Nat) (b : Bool), Kept s ((s.count .clashes).onLine fun l =>
      { l with clashRun := n, txOff := l.txOff || b }) := fun n b =>
    (Kept.count ..).trans (.onLine (f := fun l => { l with clashRun := n, txOff := l.txOff || b })
      fun h k => ⟨h, k⟩)
  refine .ite (fun _ => ?_) (fun _ => h ..)
  refine Kept.trans ?_ (.closeIfQuiet _)
  refine Kept.trans ?_ (.judgeArm _)
  refine Kept.trans ?_ (.raiseLineFault _)
  exact (h ..).trans (.onRoster fun h => h)

theorem Kept.dispatch (p) {f : RequestRecord → State → State} (h : ∀ r s, Kept s (f r s))
    (s : State) : Kept s (s.dispatch p f) := by
  unfold State.dispatch
  split
  · next q =>
    refine .ite (fun _ => ?_) (fun _ => .refl s)
    refine Kept.trans (.onLine fun k l => ⟨k, ?_⟩) (h ..)
    rw [q] at l
    simp at l ⊢
    omega
  · exact .refl s

end Sys2Proof.Machine
end

