-- ==== Sys2Proof/Laws/PerInstr.lean ====
section
/-! SUPPORT. One statement about every command: a well-formed command's payload keeps the bound of
R2, one lemma per constructor. -/

namespace Sys2Proof

/-- The payload bytes of a command; a command that is no telegram has none. -/
def Instr.payload : Instr → List Byte
  | .requestArrival _ _ _ p | .reply _ _ _ p => p
  | .announce _ _ p | .digest _ _ p | .report _ _ p | .start _ _ p => p
  | .decline _ _ p | .halt _ _ p | .genericHalt _ _ p | .axisSetup _ _ p => p
  | .levelSetup _ _ p | .cueSetup _ _ p | .keys _ _ p | .levelKeys _ _ p => p
  | .cues _ _ p => p
  | .powerOnReset .. | .pinReset .. | .quietCountReached .. | .intermissionEnd .. => []
  | .lineStuck .. | .transmitStart .. | .arbitrationLost .. | .clash .. => []
  | .transmitComplete .. | .formError .. | .checkError .. | .undefinedClass .. => []
  | .stationResetFlush | .rosterReopening | .dispatchUnknown | .dispatchBusy => []
  | .announceDelayExpiry | .rosterClosing | .realMark .. | .shutterFall .. => []
  | .holdoverDeadline | .coastingMark | .localEntry | .localMark => []
  | .acquireTimeout | .passTick | .slewTick | .reportTimerExpiry => []
  | .status | .clearFault | .cue | .seek => []
  | .jog | .returnPath | .beginLoad | .commitLoad => []
  | .validationEnd | .setChannelAxis | .setChannelStation | .setDisposition => []
  | .setReference | .readPass | .readDeviations | .setLevel => []
  | .stationReset | .rosterReopen | .stepLeadingEdge .. | .stepTrailingEdge .. => []
  | .encoderChange .. | .limitInputFalling .. | .limitInputRising .. | .driveFaultInputFalling .. => []
  | .driveFaultInputRising .. | .estopFalling .. | .estopRising .. | .scanComplete .. => []
  | .pwmPeriodBoundary | .startBit .. => []

namespace Laws.PayloadBound

/-- R2: a well-formed command's payload holds at most 24 bytes. -/
def Statement (i : Instr) : Prop := i.wellFormed = true → i.payload.length ≤ 24

/-- A payload that fits holds at most 24 bytes. -/
theorem fits {p : List Byte} (h : payloadFits p = true) : p.length ≤ 24 := of_decide_eq_true h

theorem powerOnReset (rate : LineRate) (participant : Bool) :
    Statement (.powerOnReset rate participant) :=
  fun _ => Nat.zero_le _

theorem pinReset (rate : LineRate) (participant : Bool) : Statement (.pinReset rate participant) :=
  fun _ => Nat.zero_le _

theorem quietCountReached (t : Nat) : Statement (.quietCountReached t) := fun _ => Nat.zero_le _

theorem intermissionEnd (t : Nat) : Statement (.intermissionEnd t) := fun _ => Nat.zero_le _

theorem lineStuck (t : Nat) : Statement (.lineStuck t) := fun _ => Nat.zero_le _

theorem transmitStart (t : Nat) : Statement (.transmitStart t) := fun _ => Nat.zero_le _

theorem arbitrationLost (t : Nat) : Statement (.arbitrationLost t) := fun _ => Nat.zero_le _

theorem clash (t : Nat) : Statement (.clash t) := fun _ => Nat.zero_le _

theorem transmitComplete (t : Nat) : Statement (.transmitComplete t) := fun _ => Nat.zero_le _

theorem formError (t : Nat) : Statement (.formError t) := fun _ => Nat.zero_le _

theorem checkError (t : Nat) : Statement (.checkError t) := fun _ => Nat.zero_le _

theorem undefinedClass (t : Nat) : Statement (.undefinedClass t) := fun _ => Nat.zero_le _

theorem stationResetFlush : Statement .stationResetFlush := fun _ => Nat.zero_le _

theorem rosterReopening : Statement .rosterReopening := fun _ => Nat.zero_le _

theorem requestArrival (t : Nat) (station : BitVec 5) (kind : BitVec 4) (payload : List Byte) :
    Statement (.requestArrival t station kind payload) :=
  fits

theorem dispatchUnknown : Statement .dispatchUnknown := fun _ => Nat.zero_le _

theorem dispatchBusy : Statement .dispatchBusy := fun _ => Nat.zero_le _

theorem announceDelayExpiry : Statement .announceDelayExpiry := fun _ => Nat.zero_le _

theorem announce (t : Nat) (station : BitVec 5) (payload : List Byte) :
    Statement (.announce t station payload) :=
  fits

theorem rosterClosing : Statement .rosterClosing := fun _ => Nat.zero_le _

theorem digest (t : Nat) (station : BitVec 5) (payload : List Byte) :
    Statement (.digest t station payload) :=
  fits

theorem report (t : Nat) (station : BitVec 5) (payload : List Byte) :
    Statement (.report t station payload) :=
  fits

theorem realMark (t : Nat) (roll : Bool) : Statement (.realMark t roll) := fun _ => Nat.zero_le _

theorem shutterFall (t : Nat) : Statement (.shutterFall t) := fun _ => Nat.zero_le _

theorem holdoverDeadline : Statement .holdoverDeadline := fun _ => Nat.zero_le _

theorem coastingMark : Statement .coastingMark := fun _ => Nat.zero_le _

theorem localEntry : Statement .localEntry := fun _ => Nat.zero_le _

theorem localMark : Statement .localMark := fun _ => Nat.zero_le _

theorem acquireTimeout : Statement .acquireTimeout := fun _ => Nat.zero_le _

theorem passTick : Statement .passTick := fun _ => Nat.zero_le _

theorem slewTick : Statement .slewTick := fun _ => Nat.zero_le _

theorem reportTimerExpiry : Statement .reportTimerExpiry := fun _ => Nat.zero_le _

theorem start (t : Nat) (station : BitVec 5) (payload : List Byte) :
    Statement (.start t station payload) :=
  fits

theorem decline (t : Nat) (station : BitVec 5) (payload : List Byte) :
    Statement (.decline t station payload) :=
  fits

theorem halt (t : Nat) (station : BitVec 5) (payload : List Byte) :
    Statement (.halt t station payload) :=
  fun h => fits (Bool.and_eq_true_iff.1 h).1

theorem genericHalt (t : Nat) (station : BitVec 5) (payload : List Byte) :
    Statement (.genericHalt t station payload) :=
  fun h => fits (Bool.and_eq_true_iff.1 h).1

theorem axisSetup (t : Nat) (station : BitVec 5) (payload : List Byte) :
    Statement (.axisSetup t station payload) :=
  fits

theorem levelSetup (t : Nat) (station : BitVec 5) (payload : List Byte) :
    Statement (.levelSetup t station payload) :=
  fits

theorem cueSetup (t : Nat) (station : BitVec 5) (payload : List Byte) :
    Statement (.cueSetup t station payload) :=
  fits

theorem keys (t : Nat) (station : BitVec 5) (payload : List Byte) :
    Statement (.keys t station payload) :=
  fits

theorem levelKeys (t : Nat) (station : BitVec 5) (payload : List Byte) :
    Statement (.levelKeys t station payload) :=
  fits

theorem cues (t : Nat) (station : BitVec 5) (payload : List Byte) :
    Statement (.cues t station payload) :=
  fits

theorem status : Statement .status := fun _ => Nat.zero_le _

theorem clearFault : Statement .clearFault := fun _ => Nat.zero_le _

theorem cue : Statement .cue := fun _ => Nat.zero_le _

theorem seek : Statement .seek := fun _ => Nat.zero_le _

theorem jog : Statement .jog := fun _ => Nat.zero_le _

theorem returnPath : Statement .returnPath := fun _ => Nat.zero_le _

theorem beginLoad : Statement .beginLoad := fun _ => Nat.zero_le _

theorem commitLoad : Statement .commitLoad := fun _ => Nat.zero_le _

theorem validationEnd : Statement .validationEnd := fun _ => Nat.zero_le _

theorem setChannelAxis : Statement .setChannelAxis := fun _ => Nat.zero_le _

theorem setChannelStation : Statement .setChannelStation := fun _ => Nat.zero_le _

theorem setDisposition : Statement .setDisposition := fun _ => Nat.zero_le _

theorem setReference : Statement .setReference := fun _ => Nat.zero_le _

theorem readPass : Statement .readPass := fun _ => Nat.zero_le _

theorem readDeviations : Statement .readDeviations := fun _ => Nat.zero_le _

theorem setLevel : Statement .setLevel := fun _ => Nat.zero_le _

theorem stationReset : Statement .stationReset := fun _ => Nat.zero_le _

theorem rosterReopen : Statement .rosterReopen := fun _ => Nat.zero_le _

theorem stepLeadingEdge (axis : Fin 4) : Statement (.stepLeadingEdge axis) := fun _ => Nat.zero_le _

theorem stepTrailingEdge (axis : Fin 4) : Statement (.stepTrailingEdge axis) :=
  fun _ => Nat.zero_le _

theorem encoderChange (t : Nat) (axis : Fin 4) (a b : Bool) :
    Statement (.encoderChange t axis a b) :=
  fun _ => Nat.zero_le _

theorem limitInputFalling (t : Nat) (axis : Fin 4) (side : LimitEnd) :
    Statement (.limitInputFalling t axis side) :=
  fun _ => Nat.zero_le _

theorem limitInputRising (t : Nat) (axis : Fin 4) (side : LimitEnd) :
    Statement (.limitInputRising t axis side) :=
  fun _ => Nat.zero_le _

theorem driveFaultInputFalling (t : Nat) (axis : Fin 4) :
    Statement (.driveFaultInputFalling t axis) :=
  fun _ => Nat.zero_le _

theorem driveFaultInputRising (t : Nat) (axis : Fin 4) :
    Statement (.driveFaultInputRising t axis) :=
  fun _ => Nat.zero_le _

theorem estopFalling (t : Nat) : Statement (.estopFalling t) := fun _ => Nat.zero_le _

theorem estopRising (t : Nat) : Statement (.estopRising t) := fun _ => Nat.zero_le _

theorem scanComplete (readings : ScanReadings) : Statement (.scanComplete readings) :=
  fun _ => Nat.zero_le _

theorem pwmPeriodBoundary : Statement .pwmPeriodBoundary := fun _ => Nat.zero_le _

theorem startBit (t : Nat) : Statement (.startBit t) := fun _ => Nat.zero_le _

theorem reply (t : Nat) (station : BitVec 5) (kind : BitVec 4) (payload : List Byte) :
    Statement (.reply t station kind payload) :=
  fits

end Laws.PayloadBound

end Sys2Proof
end

