-- ==== Sys2Proof/Tests/Slice0.lean ====
section
/-! SUPPORT. The model's own tests: the worked examples of the spec on small states, refusals of ill-formed
commands, and for each statement with hypotheses a state and operands that meet them (`witness_…`). -/

section
open Sys2Proof Sys2Proof.Machine

namespace Sys2Proof.Tests

/-! ## Well-formed commands -/

theorem test_payload_of_24_accepted :
    (Instr.reply 0 0 0 (List.replicate 24 0)).wellFormed = true := by decide
theorem test_payload_of_25_refused :
    (Instr.keys 0 0 (List.replicate 25 0)).wellFormed = false := by decide
theorem test_generic_mark_is_no_halt :
    (Instr.halt 0 0 [255, 255, 255, 0, 0, 0, 0, 0]).wellFormed = false := by decide
theorem test_named_pass_is_no_generic_halt :
    (Instr.genericHalt 0 0 [0, 0, 5, 0, 0, 0, 0, 0]).wellFormed = false := by decide

/-! ## The states the tests start from -/

/-- The state after a command. -/
def after (c : Instr) (s : State) : State :=
  match exec c s with
  | .next t => t
  | _ => s

/-- A store with AXIS_0 from 0 to 3,000 steps over 96 frames, LEVEL_A from 200 to 900, and two cues. -/
def testStore : MoveStore :=
  { MoveStore.reset with
    phase := .valid
    header := some { moveId := 7310, rounding := .nearest, refRate := 24,
                     enables := #v[true, false, false, false, true, false],
                     counts := #v[2, 0, 0, 0, 2, 0], cueCount := 2 }
    axisSetups := #v[some { scaleClass := 1, origin := 0, softMin := -10000, softMax := 10000,
                            slewSpeed := 2560, slewAccel := 512, followingLimit := 100,
                            tolerance := 40 }, none, none, none]
    levelSetups := #v[some { compensation := 1, nominal := 800 }, none]
    cueSetup := some 2, blockStarts := #v[some 0, none, none, none, some 4, none]
    pool := [(0, .axis { time := 0, value := 0, shape := 1, tangent := none }),
             (1, .axis { time := 96, value := 768000, shape := 0, tangent := none }),
             (4, .level { time := 0, value := 200, shape := 1 }),
             (5, .level { time := 96, value := 900, shape := 0 })]
    cueList := [{ frame := 0, phase := 0, lines := 1, action := 0, pulse := 0 },
                { frame := 1, phase := 256, lines := 8, action := 2, pulse := 8 }]
    nextIndex := #v[2, 0, 0, 0, 2, 0], nextCue := 2, length := some 96 }

/-- An IDLE participant, station 1 of two, receiving a telegram; LOCKED at 24 fps with a valid move. -/
def rig : State :=
  { State.reset with
    line := { LineInterface.reset .mbit1 with state := .receiving }
    roster := { Roster.reset 0 true with
      phase := .closed, ownPosition := some 1, schedule := .done
      table := [{ RosterEntry.own 9001 false with rank := 0 }, RosterEntry.own 0 true] }
    clock := { FrameClock.reset with
      state := .locked, period := some 2083333, timingBase := some 0, measuringBase := some 0
      tickIndex := some 3 }
    store := testStore
    engine := { Engine.reset with nodeState := .idle } }

/-- The rig in a node state. -/
def rigIn (ns : NodeState) : State := { rig with engine := { rig.engine with nodeState := ns } }

/-- The rig with its line interface in a state. -/
def lineIn (ls : LineState) : State := { rig with line := { rig.line with state := ls } }

/-- The rig with its clock in a state. -/
def clockIn (cs : ClockState) : State := { rig with clock := { rig.clock with state := cs } }

/-- A request of kind `kind` from station 0 waits, addressed to every station. -/
def record (kind : BitVec 4) (body : List Byte) : RequestRecord :=
  { requester := 0, kind, target := 31, body }

def asking (kind : BitVec 4) (body : List Byte) (s : State) : State :=
  { s with line := { s.line with requestQueue := [record kind body] } }

/-- The pass parameters of the tests. -/
def pass : PassParams :=
  { startFrame := 5, moveId := 7310, rate := 4096, scale := 16384, haltLength := 16, interval := 1 }

/-- The rig in its pass, at tick `n` of the full rate. -/
def passing (n : Nat) : State :=
  { rig with engine := { rig.engine with
      nodeState := .running, params := some pass, ticked := true, tick := n, moveTime := n * 4096
      tickDuration := 130208 } }

/-- The pass with a ramp start held. -/
def ramping (n ramp : Nat) : State :=
  { passing n with engine := { (passing n).engine with
      halt := { (passing n).engine.halt with rampStart := some ramp } } }

/-- The rig PENDING on its pass. -/
def awaiting : State :=
  { rig with engine := { rig.engine with nodeState := .pending, params := some pass } }

/-- The reply at the tail of the transmit queue: code and reason. -/
def lastReply (s : State) : Option (List Byte) :=
  s.line.txQueue.getLast?.map fun e => (e.payload.drop 1).take 2

/-! ## The line interface (chapter 1) -/

/-- A REPLY telegram with an empty payload. -/
def smallTelegram : Telegram := { cls := 5, station := 4, kind := 0, payload := [1, 0, 0] }

/-- A reply to kind `k` of node 4, in the worked sequence of a full queue (chapter 1). -/
def reply4 (k : BitVec 4) : TxEntry := .new 5 4 k [0, 0, 0] .reply

/-- The queue of the worked sequence of chapter 1: DECLINE, REPORT, and replies. -/
def fullQueue : List TxEntry :=
  [.new 1 4 1 [0, 0, 5, 0] .decline, .new 2 4 0 [] .report, reply4 0, reply4 1, reply4 11,
   reply4 11, reply4 12, reply4 15]

def full : State := { rig with line := { rig.line with txQueue := fullQueue } }

def halt4 : TxEntry := .new 0 4 0 [] (.halt true)

theorem witness_LineCodingRoundTrip : smallTelegram.payload.length ≤ 24 ∧
    (List.replicate 24 (255 : Byte)).length ≤ 24 ∧ definedKind 5 0 = true ∧
    definedKind 7 0 = false := by decide
theorem test_small_telegram_is_read :
    judgeBits smallTelegram.lineBits = .wellFormed smallTelegram := by decide +kernel
theorem test_values_of_the_full_queue : fullQueue.map TxEntry.value =
    [577, 1088, 2624, 2625, 2635, 2635, 2636, 2639] := by decide
/-- Chapter 1, a full queue while the line is stuck: the HALT displaces the last reply. -/
theorem test_halt_displaces : (full.offer halt4).line.txQueue.map TxEntry.value =
    [64, 577, 1088, 2624, 2625, 2635, 2635, 2636] ∧
    (full.offer halt4).sup.counter .txDrops = 1 := by decide
theorem test_reply_is_dropped : (full.offer (reply4 13)).line.txQueue = fullQueue ∧
    (full.offer (reply4 13)).sup.counter .txDrops = 1 := by decide

theorem witness_StepRunsFrontCommand : State.reset.pending = [] := rfl
theorem witness_IdleTakesEarliestDue : State.reset.pending = [] := rfl
theorem witness_BaseTimeNeverRunsBack : wholeReset .passTick = false ∧
    ∃ t, exec .passTick State.reset = .next t := ⟨rfl, _, rfl⟩
theorem witness_BoundsKeptByEveryStep :
    State.reset.bounded = true ∧ ∃ t, step State.reset = .next t := ⟨by decide +kernel, _, rfl⟩
theorem witness_ResetsStartThePart :
    (Instr.powerOnReset .mbit2 false = .powerOnReset .mbit2 false ∧
      ResetCause.powerOn = .powerOn) ∧
    (Instr.pinReset .mbit1 true = .pinReset .mbit1 true ∧ ResetCause.pin = .pin) := by decide
theorem test_pin_reset : (after (.pinReset .mbit2 false) full).sup.resetCause = .pin ∧
    (after (.pinReset .mbit2 false) full).line.txQueue = [] := by decide
theorem test_power_on_reset : (after (.powerOnReset .mbit2 false) full).line.rate = .mbit2 ∧
    (after (.powerOnReset .mbit2 false) full).engine.nodeState = .settling := by decide

theorem witness_TransmitQueueKeptByEveryStep : (∃ t, step full = .next t) ∧
    full.queueOrdered ∧ full.oneAttempt ∧ (∃ t, step State.reset = .next t) ∧
    State.reset.line.state = .waitQuiet ∧ State.reset.line.quietCount < 11 :=
  ⟨⟨_, rfl⟩, by decide, by decide, ⟨_, rfl⟩, by decide, by decide⟩
theorem witness_OfferedTelegramIsPlaced : full.queueOrdered ∧
    full.engine.nodeState ≠ .excluded ∧
    (fullQueue.any fun x => x.owner == .report && !x.sending) = true ∧
    (TxEntry.new 2 4 0 [1] .report).owner = .report ∧
    (reply4 13).owner = .reply ∧ 8 ≤ full.line.txQueue.length ∧ (reply4 13).cls = 5 ∧
    rig.queueOrdered ∧ rig.line.txQueue.length < 8 ∧
    (rig.line.txQueue.any fun x => x.owner == .report && !x.sending) = false := by decide
/-- A queue of 8 HALTs of the node's own. -/
def fullOfHalts : State := { rig with line := { rig.line with txQueue := List.replicate 8 halt4 } }

theorem witness_OfferedTelegramIsPlaced_full : halt4.cls = 0 ∧ halt4.sending = false ∧
    fullOfHalts.queueOrdered ∧ fullOfHalts.engine.nodeState ≠ .excluded ∧
    8 ≤ fullOfHalts.line.txQueue.length ∧ halt4.owner = .halt true ∧
    (fullOfHalts.line.txQueue.any fun x => x.owner == .report && !x.sending) = false ∧
    (TxEntry.new 3 31 0 [] .announce).cls ≠ 0 ∧
    (TxEntry.new 5 4 14 [] (.stationResetReply true)).cls ≠ 0 ∧
    (TxEntry.new 5 4 15 [] .rosterReopenReply).cls ≠ 0 ∧
    (let s : State := { fullOfHalts with
       engine := State.reset.engine
       roster := { State.reset.roster with schedule := .offered } }
     s.queueOrdered ∧ s.engine.nodeState ≠ .excluded ∧ s.roster.phase = .settling ∧
     s.roster.schedule = .offered ∧ 8 ≤ s.line.txQueue.length) ∧
    (rigIn .excluded).queueOrdered ∧ (rigIn .excluded).engine.nodeState = .excluded := by decide
theorem witness_LineStatesFollowTheLine : State.reset.line.state = .waitQuiet ∧
    State.reset.line.quietCount < 11 ∧
    State.reset.roster.phase = .settling ∧ State.reset.roster.schedule = .awaitIdle ∧
    (lineIn .intermission).line.state = .intermission ∧ (lineIn .idle).line.state = .idle := by
  decide
/-- R20 by hand for serial 40,112: 270,567,209, whose high half 4,128 leaves 33 by 39 (assumption 23). -/
theorem test_first_delay : announceDelay (nextAnnounceSeq 40112#32) = 35 * 50000 := by decide
theorem test_quiet_count : (after (.quietCountReached 1100) State.reset).line.state = .idle ∧
    (after (.quietCountReached 1100) State.reset).line.quietCount = 11 := by decide
theorem test_start_bit : (after (.startBit 9) (lineIn .idle)).line.state = .receiving := by decide
theorem test_intermission_end :
    (after (.intermissionEnd 9) (lineIn .intermission)).line.state = .idle := by decide

/-- The line interface in transmission of the DECLINE of the full queue. -/
def transmitting : State :=
  { rig with line := { rig.line with
      state := .transmitting
      txQueue := [{ halt4 with cancelled := true }, { reply4 0 with sending := true }, reply4 1] } }

def decided (e : TxEntry) : State :=
  { rig with line := { rig.line with state := .transmitting, txQueue := [e] } }

theorem witness_StuckLineHoldsTheQueue : transmitting.oneAttempt ∧
    (passing 3).engine.nodeState.inPass = true ∧ (passing 3).line.lineStuck = false ∧
    (passing 3).oneAttempt ∧ transmitting.engine.nodeState = .idle ∧
    transmitting.line.txQueue.length < 7 ∧ reply4 1 ∈ transmitting.line.txQueue ∧
    ({ transmitting with line := { transmitting.line with lineStuck := true } } : State).oneAttempt :=
  by decide
theorem test_line_stuck : (after (.lineStuck 9) (passing 3)).latchedCause .lineFault = true ∧
    (after (.lineStuck 9) (passing 3)).line.dominantRun = 32 := by decide
theorem witness_AttemptTakesTheHead : (lineIn .idle).line.state = .idle ∧
    (let q := [{ halt4 with cancelled := true }, reply4 0, reply4 1]
     let s : State := { lineIn .idle with line := { (lineIn .idle).line with txQueue := q } }
     s.line.state = .idle ∧ s.line.txQueue = [{ halt4 with cancelled := true }] ++ reply4 0 ::
       [reply4 1] ∧ (∀ x ∈ [{ halt4 with cancelled := true }], x.cancelled = true) ∧
     (reply4 0).cancelled = false ∧ s.line.txOff = false ∧ s.line.lineStuck = false ∧
     s.engine.nodeState ≠ .excluded ∧
     ({ s with line := { s.line with txOff := true } } : State).line.txOff = true ∧
     ({ s with line := { s.line with lineStuck := true } } : State).line.lineStuck = true ∧
     (rigIn .excluded).engine.nodeState = .excluded) := by decide
theorem test_transmit_start : (after (.transmitStart 9)
    { full with line := { full.line with state := .idle } }).line.txQueue.map TxEntry.sending =
      [true, false, false, false, false, false, false, false] := by decide
theorem witness_LostArbitrationWaitsAgain : transmitting.line.state = .transmitting ∧
    transmitting.attempt [{ halt4 with cancelled := true }] { reply4 0 with sending := true }
      [reply4 1] ∧
    (decided { halt4 with sending := true, cancelled := true }).attempt []
      { halt4 with sending := true, cancelled := true } [] ∧
    (decided { halt4 with sending := true, flushing := true }).attempt []
      { halt4 with sending := true, flushing := true } [] := by decide
theorem test_arbitration_lost :
    (after (.arbitrationLost 9) transmitting).line.txQueue.any TxEntry.sending = false ∧
    (after (.arbitrationLost 9) transmitting).line.txQueue.length = 3 := by decide
theorem witness_ClashDropsAndCounts : transmitting.line.state = .transmitting ∧
    transmitting.attempt [{ halt4 with cancelled := true }] { reply4 0 with sending := true }
      [reply4 1] ∧ transmitting.line.clashRun + 1 < 16 ∧
    (let s : State := { passing 3 with line := { (decided { reply4 0 with sending := true }).line with
       clashRun := 15 } }
     s.line.state = .transmitting ∧ s.attempt [] { reply4 0 with sending := true } [] ∧
     16 ≤ s.line.clashRun + 1 ∧ s.line.txOff = false ∧ s.engine.nodeState.inPass = true ∧
     ({ s with roster := State.reset.roster } : State).roster.phase = .settling) := by decide
theorem test_sixteenth_clash :
    (after (.clash 9) { decided { reply4 0 with sending := true } with
      line := { (decided { reply4 0 with sending := true }).line with clashRun := 15 } }).line.txOff =
      true := by decide
theorem witness_CompletedTelegramLeaves : transmitting.line.state = .transmitting ∧
    transmitting.attempt [{ halt4 with cancelled := true }] { reply4 0 with sending := true }
      [reply4 1] ∧
    (decided { halt4 with sending := true }).attempt [] { halt4 with sending := true } [] ∧
    (let e : TxEntry := { TxEntry.new 3 31 0 [] .announce with sending := true }
     let s : State := { State.reset with
       line := { State.reset.line with state := .transmitting, txQueue := [e] }
       roster := { State.reset.roster with schedule := .offered } }
     s.line.state = .transmitting ∧ s.attempt [] e [] ∧ e.owner = .announce ∧
     s.roster.phase = .settling ∧ s.roster.schedule = .offered) := by decide
theorem test_transmit_complete :
    (after (.transmitComplete 9) transmitting).line.txQueue.length = 2 ∧
    (after (.transmitComplete 9) transmitting).line.state = .intermission := by decide
theorem witness_ReceiveFindings : rig.line.state = .receiving ∧
    (lineIn .intermission).line.state = .intermission ∧ ([] : List Byte).length ≠ 8 := by decide
theorem test_form_error : (after (.formError 9) rig).line.state = .waitQuiet ∧
    (after (.formError 9) rig).sup.counter .formErrors = 1 := by decide
theorem test_check_error : (after (.checkError 9) rig).sup.counter .checkErrors = 1 := by decide
theorem test_undefined_class : (after (.undefinedClass 9) rig).sup.counter .unknownClass = 1 := by
  decide
theorem test_reply_is_not_acted_on : after (.reply 0 0 0 [31, 0, 0]) rig = lineIn .intermission := by
  decide

theorem witness_RequestJoinsTheQueue : rig.line.state = .receiving ∧
    rig.engine.nodeState ≠ .settling ∧ rig.engine.nodeState ≠ .excluded ∧
    rig.roster.station = some (1 : Byte).toNat ∧ rig.line.requestQueue.length < 4 ∧
    (let s : State := { rig with line := { rig.line with
       requestQueue := List.replicate 4 (record 0 [0, 0]) } }
     s.line.state = .receiving ∧ 4 ≤ s.line.requestQueue.length) ∧
    ¬ ((7 : Byte) = 31 ∨ rig.roster.station = some (7 : Byte).toNat) ∧
    (rigIn .settling).line.state = .receiving := by decide
theorem test_request_for_this_station :
    (after (.requestArrival 9 0 0 [1, 0, 0]) rig).line.requestQueue.length = 1 ∧
    (after (.requestArrival 9 0 0 [7, 0, 0]) rig).line.requestQueue = [] := by decide
theorem witness_DispatcherAnswersItself :
    (asking 0 [] rig).line.requestQueue = record 0 [] :: [] ∧ (asking 0 [] rig).hasRoom ∧
    definedLength 0 1 = false ∧ definedLength 0 3 = true ∧
    (let s : State := { asking 0 [0, 0] rig with store := { testStore with phase := .validating } }
     s.line.requestQueue = record 0 [0, 0] :: [] ∧ s.hasRoom ∧ s.store.phase = .validating) := by
  decide
theorem test_dispatch_unknown : lastReply (after .dispatchUnknown (asking 0 [] rig)) = some [5, 0] := by
  decide
theorem test_dispatch_busy : lastReply (after .dispatchBusy { asking 0 [0, 0] rig with
    store := { testStore with phase := .validating } }) = some [2, 0] := by decide
theorem witness_ResetFlushEmptiesTheQueues :
    (let s : State := { rig with line := { rig.line with flushDue := true } }
     s.line.flushDue = true ∧ s.engine.nodeState ≠ .settling ∧ s.engine.nodeState ≠ .excluded ∧
     s.oneAttempt ∧ (s.line.txQueue.filter TxEntry.isResetReply).length < 7) := by decide
theorem test_reset_flush : (after .stationResetFlush
    { full with line := { full.line with flushDue := true } }).line.txQueue.map TxEntry.owner =
      [.report] := by decide

/-! ## The roster (chapter 2) -/

/-- SETTLING at an announce delay. -/
def delaying : State :=
  { State.reset with
    line := { State.reset.line with state := .receiving }
    roster := { State.reset.roster with schedule := .delay 850000 } }

theorem witness_AnnounceIsOffered : delaying.roster.phase = .settling ∧
    delaying.roster.schedule = .delay 850000 ∧ delaying.hasRoom ∧
    ({ delaying with line := { delaying.line with txOff := true } } : State).hasRoom := by decide
theorem test_announce_delay_expiry : (after .announceDelayExpiry delaying).now = 850000 ∧
    (after .announceDelayExpiry delaying).line.txQueue.map TxEntry.payload =
      [[0, 0, 0, 0, 129]] := by decide

/-- The table of 24 stations of serials 1 to 24, the own one at 0. -/
def crowded : State :=
  { delaying with roster := { delaying.roster with
      table := (List.range 24).map fun n => RosterEntry.own (BitVec.ofNat 32 n) true } }

theorem witness_AnnounceJoinsTheTable : delaying.line.state = .receiving ∧
    delaying.roster.phase = .settling ∧
    (∀ e ∈ delaying.roster.table, e.serial ≠ BitVec.ofNat 32 (fieldAt [0, 0, 35, 41, 0] 0 4)) ∧
    (∃ e ∈ delaying.roster.table, e.serial = BitVec.ofNat 32 (fieldAt [0, 0, 0, 0, 1] 0 4)) ∧
    crowded.line.state = .receiving ∧ 24 ≤ crowded.roster.table.length ∧
    (∀ e ∈ crowded.roster.table, e.serial ≠ BitVec.ofNat 32 (fieldAt [0, 0, 35, 41, 0] 0 4)) ∧
    (crowded.roster.table.Pairwise fun a b =>
      a.rank.toNat < b.rank.toNat ∨ a.rank = b.rank ∧ a.serial.toNat < b.serial.toNat) := by
  decide +kernel
/-- A full table whose last entry is the own one, of serial 30. -/
def leaving : State :=
  { delaying with
    serial := 30
    roster := { delaying.roster with
      ownPosition := some 23
      table := ((List.range 23).map fun n => RosterEntry.own (BitVec.ofNat 32 n) true) ++
        [.own 30 true] } }

theorem witness_AnnounceJoinsTheTable_leaving : leaving.line.state = .receiving ∧
    leaving.roster.phase = .settling ∧ 24 ≤ leaving.roster.table.length ∧
    (∀ e ∈ leaving.roster.table, e.serial ≠ BitVec.ofNat 32 (fieldAt [0, 0, 35, 41, 0] 0 4)) ∧
    (leaving.roster.table.Pairwise fun a b =>
      a.rank.toNat < b.rank.toNat ∨ a.rank = b.rank ∧ a.serial.toNat < b.serial.toNat) ∧
    leaving.roster.ownPosition = some 23 ∧
    (after (.announce 9 31 [0, 0, 35, 41, 0]) leaving).roster.ownPosition = none := by
  decide +kernel
/-- Chapter 2: station C, rank 0, serial 9,001 comes before this station. -/
theorem test_announce : ((after (.announce 9 31 [0, 0, 35, 41, 0]) delaying).roster.table.map
    RosterEntry.serial) = [9001, 0] ∧
    (after (.announce 9 31 [0, 0, 35, 41, 0]) delaying).roster.ownPosition = some 1 := by decide
theorem witness_LateAnnounceOrDigestMismatches : rig.line.state = .receiving ∧
    rig.roster.phase = .closed ∧ delaying.line.state = .receiving ∧
    delaying.roster.phase = .settling ∧
    ¬ (byteAt [2, 0, 0] 0 = rig.roster.table.length ∧
      fieldAt [2, 0, 0] 1 2 = rig.roster.check.toNat) ∧
    (let p := 2 :: bytesOf rig.roster.check.toNat 2
     byteAt p 0 = rig.roster.table.length ∧ fieldAt p 1 2 = rig.roster.check.toNat) := by decide +kernel
theorem test_digest_mismatch : (after (.digest 9 0 [3, 0, 0]) rig).roster.mismatch = true := by
  decide

/-- SETTLING with three announces sent. -/
def announced : State :=
  { delaying with roster := { delaying.roster with announceCount := 3, schedule := .done } }

theorem witness_RosterCloses : announced.roster.phase = .settling ∧
    3 ≤ announced.roster.announceCount ∧ announced.roster.ownPosition = some 0 ∧
    announced.roster.resume = .idle ∧ announced.line.txQueue.length < 7 ∧
    (let s : State := { announced with
       line := { announced.line with txOff := true }
       roster := { announced.roster with ownPosition := none, announceCount := 0 } }
     s.roster.phase = .settling ∧ s.line.txOff = true ∧ s.roster.ownPosition = none) := by decide
theorem test_roster_closing : (after .rosterClosing announced).now = 15000000 ∧
    (after .rosterClosing announced).engine.nodeState = .idle ∧
    (after .rosterClosing announced).roster.station = some 0 := by decide
theorem witness_RosterReopens :
    (let s : State := { full with line := { full.line with reopenDue := true } }
     s.line.reopenDue = true ∧ s.line.state ≠ .idle ∧ s.roster.phase = .closed ∧
     s.store.phase ≠ .validating) := by decide
/-- A node that stopped after its ROSTER_REOPEN was taken in IDLE. -/
def reopeningStopped : State :=
  { rigIn .stopped with
    line := { rig.line with reopenDue := true }, roster := { rig.roster with resume := .idle } }

theorem witness_RosterReopens_stopped : reopeningStopped.line.reopenDue = true ∧
    reopeningStopped.engine.nodeState = .stopped ∧ reopeningStopped.roster.resume ≠ .stopped ∧
    reopeningStopped.store.phase ≠ .validating := by decide
theorem test_reopening_keeps_stopped :
    (after .rosterReopening reopeningStopped).roster.resume = .stopped := by decide
theorem test_roster_reopening : (after .rosterReopening
    { full with line := { full.line with reopenDue := true } }).engine.nodeState = .settling := by
  decide

/-- A REPORT: state code, roll 20, pass start 5. -/
def reportBytes (state : Byte) : List Byte := [state, 0, 1, 64, 0, 5] ++ List.replicate 18 0

/-- The pass with station 0 a watched participant of rank 1. -/
def watching : State :=
  { passing 3 with roster := { rig.roster with
      table := [{ RosterEntry.own 9001 true with watched := true }, RosterEntry.own 0 true] } }

theorem witness_ReportIsRecorded : rig.line.state = .receiving ∧ rig.roster.phase = .closed ∧
    (reportBytes 5).length = 24 ∧ (rig.roster.table[0]?.map RosterEntry.rank) = some 0 ∧
    rig.roster.table[7]? = none ∧ rig.roster.table[1]? = some (.own 0 true) ∧
    (RosterEntry.own 0 true).rank ≠ 0 ∧ rig.engine.nodeState.inPass = false := by decide
theorem test_report : ((after (.report 9 1 (reportBytes 5)) rig).roster.table[1]?.map
    fun e => (e.lastState, e.lastReport)) = some (some 5, some 9) := by decide
theorem witness_WatchJudgesReports : watching.line.state = .receiving ∧
    watching.roster.phase = .closed ∧
    watching.roster.table[0]? = some { RosterEntry.own 9001 true with watched := true } ∧
    (RosterEntry.own 9001 true).rank ≠ 0 ∧ watching.engine.nodeState = .running ∧
    watching.engine.halt.rampStart = none ∧ watching.defaults ∧
    (fieldAt (reportBytes 9) 1 5) % 2 ^ 20 = watching.passStart ∧
    [6, 9, 10, 12, 5, 11, 13].all (fun n => byteAt (reportBytes n) 0 % 16 == n.toNat) ∧
    (reportBytes 9).length = 24 := by decide
/-- The watched pass at roll 20 and the given tick index; the report's stamp is tick 4 of it. -/
def watchingAt (index : Nat) (ns : NodeState) (run : Nat) (ramp : Option Nat) : State :=
  { watching with
    clock := { watching.clock with roll := 20, tickIndex := some index }
    engine := { watching.engine with
      nodeState := ns, halt := { watching.engine.halt with rampStart := ramp } }
    roster := { watching.roster with
      table := [{ RosterEntry.own 9001 true with watched := true, misalignedRun := run },
                RosterEntry.own 0 true] } }

theorem witness_WatchJudgesReports_aligned :
    [7, 8].all (fun n => byteAt (reportBytes n) 0 % 16 == n.toNat) ∧
    16 * (fieldAt (reportBytes 7) 1 5 / 2 ^ 20) + 4 + 0 % 8 = 324 ∧
    [4, 12].all (fun i => 324 ≤ 16 * (watchingAt i .running 0 none).clock.roll + i &&
      16 * (watchingAt i .running 0 none).clock.roll + i ≤ 324 + 8) ∧
    ¬ 324 ≤ 16 * 20 + 3 ∧ ¬ 16 * 20 + 13 ≤ 324 + 8 ∧
    (watchingAt 13 .running 1 none).roster.table[0]?.map RosterEntry.misalignedRun = some 1 ∧
    (watchingAt 4 .halting 0 (some 9)).engine.nodeState.inPass = true ∧
    (watchingAt 4 .running 0 (some 9)).engine.halt.rampStart ≠ none ∧
    (watchingAt 4 .halting 0 (some 9)).defaults := by decide
theorem test_frame_slip :
    (after (.report 9 0 (reportBytes 7)) (watchingAt 13 .running 1 none)).latchedCause .frameSlip =
      true ∧
    (after (.report 9 0 (reportBytes 7)) (watchingAt 12 .running 1 none)).latchedCause .frameSlip =
      false := by decide
theorem test_peer_halted : (after (.report 9 0 (reportBytes 9)) watching).latchedCause .peerHalted =
    true ∧ (after (.report 9 0 (reportBytes 8)) (watchingAt 4 .running 0 none)).latchedCause
      .peerHalted = true := by decide

/-! ## The frame clock (chapter 3) -/

theorem witness_AcquiringBeginsAndTimesOut : (clockIn .free).clock.state = .free ∧
    (clockIn .acquiring).clock.state = .acquiring ∧
    (clockIn .acquiring).clock.measuringBase = some 0 ∧
    (let line : CueLine := { restHigh := false, active := true, pulseEnd := some 3 }
     let s : State := { clockIn .acquiring with cues := rig.cues.set 0 line }
     s.clock.measuringBase = some 0 ∧ s.cues[0].pulseEnd ≠ none) := by decide
theorem test_first_mark : (after (.realMark 9 false) (clockIn .free)).clock.state = .acquiring := by
  decide
theorem test_acquire_timeout : (after .acquireTimeout (clockIn .acquiring)).clock.state = .free ∧
    (after .acquireTimeout (clockIn .acquiring)).now = 50000000 := by decide

/-- ACQUIRING with three consistent periods of 24 fps. -/
def acquiring (run : Nat) : State :=
  { rig with clock := { rig.clock with
      state := .acquiring, previousPeriod := some 2083333, consistentRun := run } }

theorem witness_AcquiringMeasures : (acquiring 3).clock.state = .acquiring ∧
    (acquiring 3).clock.measuringBase = some 0 ∧
    (max (acquiring 3).now 99999 - 0 < 100000) ∧ (50000000 < max (acquiring 3).now 50000001 - 0) ∧
    (2091471 ≤ 2083333 + 2083333 / 256 ∧ 2083333 ≤ 2091471 + 2083333 / 256) ∧
    ¬ (2091472 ≤ 2083333 + 2083333 / 256) ∧
    (acquiring 2).clock.consistentRun + 1 < 4 ∧ 4 ≤ (acquiring 3).clock.consistentRun + 1 := by
  decide
theorem test_fourth_period_locks :
    (after (.realMark 2083000 false) (acquiring 3)).clock.state = .locked ∧
    (after (.realMark 2083000 false) (acquiring 2)).clock.state = .acquiring := by decide
theorem witness_LockedClockTracks : rig.clock.state = .locked ∧ rig.clock.timingBase = some 0 ∧
    rig.clock.measuringBase = some 0 ∧ rig.clock.period = some 2083333 ∧
    (max rig.now 1041665 - 0 < 2083333 / 2) ∧
    (2083333 / 2 ≤ max rig.now 2343749 - 0 ∧ max rig.now 2343749 - 0 ≤ 2083333 + 2083333 / 8 ∧
      2083333 ≤ max rig.now 2343749 - 0 + 2083333 / 8) := by decide
theorem test_tracked_mark : (after (.realMark 2083000 false) rig).clock.period = some 2083000 ∧
    (after (.realMark 2083000 true) { rig with clock := { rig.clock with roll := 7 } }).clock.roll =
      0 := by decide
theorem witness_TrackingFailure : rig.clock.state = .locked ∧ rig.clock.timingBase = some 0 ∧
    rig.clock.measuringBase = some 0 ∧ rig.clock.period = some 2083333 ∧ rig.defaults ∧
    (2083333 / 2 ≤ 1041666 ∧ 1041666 + 2083333 / 8 < 2083333) ∧
    (2083333 / 2 ≤ 2343750 ∧ 2083333 + 2083333 / 8 < 2343750) ∧
    (2083333 / 2 ≤ 50000001 ∧ 50000000 < 50000001) ∧
    (passing 3).engine.nodeState.inPass = true ∧ (passing 3).defaults ∧
    rig.engine.nodeState.inPass = false ∧ 100000 ≤ 2343750 ∧ 2343750 ≤ 50000000 := by decide
theorem test_unlock : (after (.realMark 2400000 false) rig).clock.state = .acquiring ∧
    (after (.realMark 2400000 false) (passing 3)).clock.state = .coasting := by decide

/-- PENDING, one frame before F. -/
def beforeF : State := { awaiting with clock := { rig.clock with roll := 4 } }

theorem witness_MarkFBeginsThePass : beforeF.clock.state = .locked ∧
    beforeF.clock.timingBase = some 0 ∧ beforeF.clock.measuringBase = some 0 ∧
    beforeF.clock.period = some 2083333 ∧ beforeF.engine.nodeState = .pending ∧
    beforeF.engine.params = some pass ∧ beforeF.store.tEnd ≠ 0 ∧ beforeF.defaults ∧
    2083333 / 2 ≤ 2083333 ∧ min 1048575 (beforeF.clock.roll + 1) = pass.startFrame := by decide
/-- The same on local marks, and with a move of length 0. -/
def localBeforeF : State := { beforeF with clock := { beforeF.clock with state := .localMarks } }
def emptyBeforeF : State := { beforeF with store := { testStore with length := some 0 } }

theorem witness_MarkFBeginsThePass_local : localBeforeF.clock.timingBase = some 0 ∧
    localBeforeF.clock.period = some 2083333 ∧ localBeforeF.engine.nodeState = .pending ∧
    localBeforeF.engine.params = some pass ∧ localBeforeF.defaults ∧
    localBeforeF.clock.state = .localMarks ∧
    min 1048575 (localBeforeF.clock.roll + 1) = pass.startFrame ∧
    emptyBeforeF.store.tEnd = 0 ∧ emptyBeforeF.clock.state = .locked ∧
    emptyBeforeF.engine.nodeState = .pending ∧
    (after .localMark localBeforeF).engine.nodeState = .running ∧
    (after (.realMark 2083333 false) emptyBeforeF).engine.nodeState = .ended := by decide
theorem test_mark_f : (after (.realMark 2083333 false) beforeF).engine.nodeState = .running ∧
    (after (.realMark 2083333 false) beforeF).engine.passNumber = 1 := by decide

theorem witness_HoldoverTakesTheMark : (clockIn .holdover).clock.state = .holdover ∧
    (clockIn .holdover).clock.timingBase = some 0 ∧
    (clockIn .holdover).clock.period = some 2083333 ∧
    max (clockIn .holdover).now 1041665 - 0 < 2083333 / 2 ∧
    2083333 / 2 ≤ max (clockIn .holdover).now 1041666 - 0 := by decide
theorem test_absorbed_mark :
    (after (.realMark 9 false) (clockIn .holdover)).clock.origin = .absorbed ∧
    (after (.realMark 9 false) (clockIn .holdover)).clock.roll = 0 := by decide
theorem witness_HoldoverDeadline : (clockIn .locked).clock.state = .locked ∧
    (clockIn .locked).clock.timingBase = some 0 ∧ (clockIn .locked).clock.period = some 2083333 ∧
    (clockIn .locked).clock.missedRun + 1 < 3 ∧
    3 ≤ ({ rig.clock with state := .holdover, missedRun := 2 } : FrameClock).missedRun + 1 := by
  decide
theorem test_holdover_deadline : (after .holdoverDeadline rig).now = 3124999 ∧
    (after .holdoverDeadline rig).clock.state = .holdover := by decide
theorem test_third_missed_mark : (after .holdoverDeadline { rig with clock := { rig.clock with
    state := .holdover, missedRun := 2 } }).clock.state = .free := by decide

/-- A lone participant, with the mark-quiet time about to reach 3 s. -/
def alone (cs : ClockState) : State :=
  { rig with
    clock := { rig.clock with state := cs }
    roster := { rig.roster with table := [.own 0 true], ownPosition := some 0 } }

def coastingPass : State := { passing 3 with clock := { rig.clock with state := .coasting } }

theorem witness_ClockMakesItsOwnMarks : coastingPass.clock.timingBase = some 0 ∧
    coastingPass.clock.period = some 2083333 ∧ coastingPass.clock.state = .coasting ∧
    (alone .localMarks).clock.timingBase = some 0 ∧
    (alone .localMarks).clock.period = some 2083333 ∧
    (alone .localMarks).clock.state = .localMarks ∧
    (alone .free).clock.state = .free ∧ (alone .free).roster.phase = .closed ∧
    (alone .free).roster.ownPosition = some 0 ∧
    (alone .free).roster.table[0]? = some (.own 0 true) ∧
    (RosterEntry.own 0 true).participant = true ∧
    ((alone .free).roster.table.filter RosterEntry.participant).length = 1 ∧
    (alone .free).store.phase = .valid ∧ (alone .free).store.header ≠ none := by decide
theorem test_coasting_mark : (after .coastingMark coastingPass).clock.timingBase = some 2083333 ∧
    (after .coastingMark coastingPass).engine.nodeState = .running := by decide
theorem test_local_entry : (after .localEntry (alone .free)).clock.state = .localMarks ∧
    (after .localEntry (alone .free)).clock.period = some 2083333 := by decide
theorem test_local_mark : (after .localMark { alone .localMarks with now := 150000000 }).clock.roll =
    1 := by decide

/-- A pass recording frame 0, AXIS_0 with an open capture of -7 on its encoder. -/
def recording : State :=
  let s := passing 3
  let d : PassDescriptor :=
    { passNumber := 1, rate := 4096, scale := 16384, framesRecorded := 0,
      sources := #v[none, none, none, none], ending := .inProgress }
  { s with
    clock := { s.clock with closePending := true }
    reg := { s.reg with
      recording := true, openFrame := some 0
      buffer1 := { s.reg.buffer1 with holds := some d } }
    axes := s.axes.set 0 { s.axes[0] with
      encoder := -4, openCapture := some { value := -7, roll := 5, source := .encoder } } }

theorem witness_FallingEdgeClosesTheFrame : recording.clock.closePending = true ∧
    recording.clock.state ≠ .coasting ∧ recording.clock.state ≠ .localMarks ∧
    recording.reg.recording = true ∧ recording.reg.openFrame = some 0 ∧ 0 < 8192 ∧
    recording.reg.capture.holds ≠ none ∧ recording.cellsWf = true ∧
    recording.axes[0].openCapture ≠ none ∧
    (let s : State := { coastingPass with clock := { coastingPass.clock with closePending := true } }
     s.clock.closePending = true ∧ s.clock.state = .coasting ∧ s.reg.recording = false) := by decide
/-- Chapter 8: open capture -7 and close -4 have midpoint floor(-11 / 2) = -6. -/
theorem test_midpoint : ((after (.shutterFall 9) recording).reg.capture.frames.read 0).map
    (fun row => row[0]) = some (some (-6)) := by decide

/-! ## Arithmetic (chapters 5 and 6) -/

theorem witness_RoundedQuotient : (65536 = 65536 ∨ 65536 = 16384) ∧ (256 : Nat) = 256 := by decide
/-- The test move with a first key of AXIS_0 of the given shape. -/
def shaped (shape : Nat) : MoveStore :=
  let k : Slot := .axis { time := 0, value := 0, shape := shape, tangent := none }
  { testStore with pool := testStore.pool.write 0 k }

/-- The test move whose AXIS_0 lies beyond its soft limits, and beyond 32 bits once scaled by 4. -/
def beyond : MoveStore :=
  let k : Slot := .axis { time := 0, value := 2147483647, shape := 0, tangent := none }
  { testStore with
    pool := testStore.pool.write 0 k
    axisSetups := testStore.axisSetups.set 0
      (testStore.axisSetups[0].map fun x => { x with scaleClass := 0 }) }

theorem witness_RoundedQuotient_evaluation : testStore.phase = .valid ∧
    testStore.header.map (fun h => (h.enables[0], h.enables[1], h.enables[4], h.enables[5])) =
      some (true, false, true, false) ∧
    (∀ x, testStore.axisSetups[0] = some x → x.softMin ≤ x.softMax) ∧
    (∀ n ∈ [0, 1, 2], (axisKeysOf (shaped n) 0).map (fun k => (k.time, k.shape)) =
      [(0, n), (96, 0)]) ∧
    (levelKeysOf testStore 0).map (fun k => (k.time, k.shape)) = [(0, 1), (96, 0)] ∧
    0 ≤ 65536 / 65536 ∧ 65536 / 65536 < 96 ∧ 96 ≤ 6291456 / 65536 ∧
    MoveStore.reset.phase ≠ .valid := by decide
theorem test_evaluation :
    (testStore.evalAxis 65536 16384 0).map AxisEval.target = some 31 ∧
    ((shaped 0).evalAxis 65536 16384 0).map AxisEval.target = some 0 ∧
    (testStore.evalAxis 6291456 16384 0).map (fun e => (e.target, e.keyIndex)) = some (3000, none) ∧
    (beyond.evalAxis 0 65536 0).map (fun e => (e.target, e.overflowScale, e.clamped)) =
      some (10000, true, true) ∧
    testStore.crossings none 0 = [testStore.cueList[0]] ∧
    testStore.crossings (some 65536) 81920 = [testStore.cueList[1]] := by decide
/-- Chapter 5, rounding on the negative side. -/
theorem test_rounding : roundQuot .nearest (-1280004 * 8192) 65536 = -160001 ∧
    roundQuot .chop (-1280004 * 8192) 65536 = -160000 ∧ roundQuot .nearest (-240002) 256 = -938 ∧
    roundQuot .chop (-240000) 256 = -937 := by decide
/-- Chapter 5, EASE at mid-segment: keys at frames 8 and 12. -/
theorem test_ease : axisShape .nearest { time := 8, value := 0, shape := 2, tangent := some 96000 }
    { time := 12, value := 256000, shape := 2, tangent := some 32000 } 655360 = 160000 := by decide
/-- Chapter 5, one key position under four scales: the axis's setup, and scale 256 in both modes. -/
theorem test_scales : (let setup : AxisSetup :=
      { scaleClass := 0, origin := 1024000, softMin := -2000, softMax := 10000, slewSpeed := 1,
        slewAccel := 1, followingLimit := 1, tolerance := 1 }
    roundQuot .nearest (scaleStage .nearest setup (-256000) 256) 256 = 3922 ∧
    roundQuot .chop (scaleStage .chop setup (-256000) 256) 256 = 3921 ∧
    clampStage setup (scaleStage .nearest setup (-256000) 32768) = -512000) := by decide
/-- Chapter 5, the worked level value. -/
theorem test_level_value : levelTrackAt .chop 1998848 [{ time := 0, value := 200, shape := 1 },
    { time := 96, value := 900, shape := 0 }] = some 422 := by decide

/-- The demand of the CUE of chapter 6 after slew tick 3. -/
def demand3 : Quantity :=
  { value := 259072, dest := 268800, start := 256000, velocity := 1536, speedLimit := 2560,
    accel := 512 }

theorem witness_SlewRule : 0 < demand3.distance ∧ 1 ≤ demand3.speedLimit ∧ 1 ≤ demand3.accel ∧
    { demand3 with value := 268800 }.distance = 0 ∧ 0 < demand3.velocity ∧
    { demand3 with velocity := 0 }.velocity = 0 := by decide
/-- Chapter 6, a CUE on one axis: slew ticks 4 to 9. -/
theorem test_cue_of_chapter_6 : (Quantity.advance^[3] demand3).value = 265969 ∧
    (Quantity.advance^[6] demand3).value = 268800 ∧
    (Quantity.advance^[3] demand3).stepTarget = 1038 := by decide
/-- Chapter 7, the CUE of chapter 6 halted: slew ticks 4 to 6. -/
theorem test_halted_cue : (Quantity.brake demand3).value = 260096 ∧
    (Quantity.brake^[3] demand3).value = 260608 ∧ (Quantity.brake^[3] demand3).velocity = 0 := by
  decide

/-- The channel of the worked plans of chapter 8. -/
def planner (c : Word32) : AxisChannel := { rig.axes[0] with commanded := c }

/-- Chapter 8, worked plans. -/
theorem test_worked_plans :
    (formPlan 0 (planner 5000) 5037 130208).map (fun p => (p.1.interval, p.1.extra, p.1.total, p.2)) =
      some (3519, 5, 37, false) ∧
    formPlan 0 (planner 5037) 5037 130208 = none ∧
    (formPlan 0 (planner 5037) 5027 130208).map (fun p => (p.1.first, p.1.interval, p.1.extra)) =
      some (250, 12995, 8) := by decide
theorem witness_PlanFillsTheTick : (formPlan 0 (planner 5000) 5037 130208).map Prod.snd = some false ∧
    (formPlan 0 (planner 0) 500 50000).map (fun p => (p.2, p.1.total)) = some (true, 100) := by decide
/-- The rig with the MAX limit input of AXIS_0 in force. -/
def limited : State :=
  { rig with sup := { rig.sup with limitMax := rig.sup.limitMax.set 0 { low := true, latch := true } } }

theorem witness_PlanFillsTheTick_handed : rig.defaults ∧ limited.defaults ∧
    rig.store.phase = .valid ∧ rig.store.axisSetups[0] ≠ none ∧
    rig.store.header.map (fun h => (h.enables[0], h.enables[1])) = some (true, false) ∧
    State.reset.store.phase = .empty ∧ (formPlan 0 rig.axes[0] 0 50000) = none ∧
    (formPlan 0 rig.axes[0] 8 50000).map (fun p => (p.2, p.1.increasing)) = some (false, true) ∧
    (formPlan 0 rig.axes[0] 10000 50000).map Prod.snd = some true ∧
    limited.sup.limitInForce 0 .max = true ∧ rig.sup.limitInForce 0 .max = false ∧
    rig.axes[0].stepHigh = false ∧ rig.axes[0].setup.ratio = 0 := by decide
/-- A target beyond the soft maximum of 10,000 is guarded; a limit in force leaves no plan (R136, R141). -/
theorem test_handed_target : (rig.handed 0 20000 5000000).plan.map Plan.total = some 10000 ∧
    (limited.handed 0 8 50000).plan = none := by decide

/-- A registration with the midpoint 100 of AXIS_0 at frame 0 in the reference. -/
def referenced : Registration :=
  { Registration.reset with
    comparable := true, compared := #v[true, false, false, false]
    buffer2 :=
      { holds := some { passNumber := 1, rate := 4096, scale := 16384, framesRecorded := 1,
                        sources := #v[none, none, none, none], ending := .ended }
        frames := [(0, #v[some 100, none, none, none])] } }

theorem witness_MidpointComparison : referenced.referenceAt 0 0 = some 100 ∧
    referenced.comparable = true ∧ referenced.compared[(0 : Fin 4)] = true ∧
    referenced.deviations.length < 64 ∧ ((140 : Int) - 100).natAbs ≤ 40 ∧
    40 < ((141 : Int) - 100).natAbs ∧ 4 * 40 < ((261 : Int) - 100).natAbs ∧
    64 ≤ (List.replicate 64 (⟨0, 0, 41, .over⟩ : DeviationEntry)).length := by decide
/-- The registration of a pass that recorded one frame, with and without a reference. -/
def oneFrame : Registration :=
  ({ Registration.reset with
    history := [.begun 1 5 4096 16384 false], recording := true, openFrame := some 0 }).setCapture
    { holds := some { passNumber := 1, rate := 4096, scale := 16384, framesRecorded := 1,
                      sources := #v[none, none, none, none], ending := .inProgress }
      frames := [(0, #v[some 100, none, none, none])] }

theorem witness_MidpointComparison_end : oneFrame.history = [] ++ [.begun 1 5 4096 16384 false] ∧
    oneFrame.reference.holds = none ∧
    oneFrame.capture.holds.map PassDescriptor.framesRecorded = some 1 ∧
    ({ referenced with history := oneFrame.history } : Registration).reference.holds ≠ none ∧
    (oneFrame.passEnded .ended none false).reference.frames = [(0, #v[some 100, none, none, none])] ∧
    (oneFrame.passEnded .halted none false).reference.holds = none := by decide
theorem test_grades : gradeOf 40 40 = none ∧ gradeOf 40 160 = some .over ∧
    gradeOf 40 (-161) = some .gross := by decide

/-! ## Passes and halts (chapters 6 and 7) -/

theorem witness_PassTickAdvancesThePass : rig.tickComes 4 520833 2083333 ∧
    (clockIn .coasting).tickComes 4 520833 2083333 ∧
    ({ rig with clock := { rig.clock with tickIndex := none } } : State).tickComes 0 0 2083333 ∧
    ({ rig with clock := { rig.clock with tickIndex := some 14 } } : State).tickComes 15 1953124
      2083333 ∧
    rig.engine.nodeState.inPass = false ∧ (passing 3).tickComes 4 520833 2083333 ∧
    (passing 3).engine.nodeState = .running ∧ (passing 3).engine.params = some pass ∧
    (passing 3).defaults ∧ (passing 3).engine.halt.rampStart = none ∧
    min (1536 * pass.rate) (passing 1535).store.tEnd = (passing 1535).store.tEnd ∧
    min (4 * pass.rate) (passing 3).store.tEnd ≠ (passing 3).store.tEnd :=
  ⟨⟨by decide, .inr ⟨3, by decide⟩, rfl, 0, by decide⟩,
   ⟨by decide, .inr ⟨3, by decide⟩, rfl, 0, by decide⟩,
   ⟨by decide, by decide, rfl, 0, by decide⟩, ⟨by decide, .inr ⟨14, by decide⟩, rfl, 0, by decide⟩,
   by decide, ⟨by decide, .inr ⟨3, by decide⟩, rfl, 0, by decide⟩, by decide, by decide, by decide,
   by decide, by decide, by decide⟩
/-- The watched pass at tick `n`, its peer with `run` reports missing and none heard. -/
def missing (n run : Nat) : State :=
  { passing n with roster := { rig.roster with
      table := [{ RosterEntry.own 9001 true with watched := true, missingRun := run },
                RosterEntry.own 0 true] } }

/-- The pass with an encoder on AXIS_0 that reads `e` steps. -/
def followed (e : Word32) : State :=
  { passing 3 with axes := rig.axes.set 0 { rig.axes[0] with
      encoder := e, setup := { rig.axes[0].setup with ratio := 1 } } }

theorem witness_PassTickAdvancesThePass_due : reportInstant 1 pass.interval 5 0 ∧
    (passing 4).roster.station = some 1 ∧ (passing 4).line.txQueue.length < 7 ∧
    (passing 4).tickComes 4 520833 2083333 ∧ pass.interval ≤ 1 ∧ reportInstant 0 pass.interval 20 1 ∧
    (missing 19 1).tickComes 4 520833 2083333 ∧ (missing 19 1).engine.params = some pass ∧
    ({ passing 15 with clock := { rig.clock with tickIndex := none } } : State).tickComes 0 0 2083333 ∧
    testStore.evalLevel (16 * pass.rate) 0 ≠ none ∧
    (followed 101).tickComes 4 520833 2083333 ∧ (followed 101).followsBadly 0 ∧
    ¬ (followed 100).followsBadly 0 :=
  ⟨by decide, by decide, by decide, ⟨by decide, .inr ⟨3, by decide⟩, rfl, 0, by decide⟩, by decide,
   by decide, ⟨by decide, .inr ⟨3, by decide⟩, rfl, 0, by decide⟩, by decide,
   ⟨by decide, by decide, rfl, 0, by decide⟩, by decide,
   ⟨by decide, .inr ⟨3, by decide⟩, rfl, 0, by decide⟩,
   ⟨by decide, by decide, _, rfl, by decide⟩,
   fun h => by
     obtain ⟨_, _, _, hs, hl⟩ := h
     cases hs
     exact absurd hl (by decide)⟩
/-- The pass on the move beyond its limits, at scale 65,536, with a ramp start held or not. -/
def straying (ramp : Option Nat) : State :=
  { passing 3 with
    store := beyond
    engine := { (passing 3).engine with
      params := some { pass with scale := 65536 }
      halt := { (passing 3).engine.halt with rampStart := ramp } } }

theorem witness_PassTickAdvancesThePass_raised : (straying none).tickComes 4 520833 2083333 ∧
    (straying none).engine.nodeState = .running ∧ (straying none).defaults ∧
    (straying none).sup.exception = none ∧
    (∀ t ∈ [4 * pass.rate, 3 * pass.rate + pass.rate * 15 / 16],
      ((straying none).store.evalAxis t 65536 0).map (fun e => (e.overflowScale, e.clamped)) =
        some (true, true)) ∧
    min (4 * pass.rate) (straying none).store.tEnd ≠ (straying none).store.tEnd ∧
    (straying (some 3)).tickComes 4 520833 2083333 ∧ 3 < (straying (some 3)).engine.tick + 1 :=
  ⟨⟨by decide, .inr ⟨3, by decide⟩, rfl, 0, by decide⟩, by decide, by decide, by decide, by decide,
   by decide, ⟨by decide, .inr ⟨3, by decide⟩, rfl, 0, by decide⟩, by decide⟩
theorem test_raised_by_a_tick : (let u := after .passTick (straying none)
    u.latchedCause .softLimitClamp = true ∧ u.sup.axisSets[4] = 1 ∧ u.sup.exceptionCount = 1 ∧
      u.sup.exception = some ⟨.overflowScale, 0, 0, .pass, 4⟩ ∧
      u.engine.halt.rampStart = some (4 + haltLead 130208)) := by decide
theorem test_checks_of_a_tick : (after .passTick (missing 19 1)).latchedCause .peerAbsent = true ∧
    ((after .passTick (missing 19 0)).roster.table.map RosterEntry.missingRun) = [1, 0] ∧
    (after .passTick (followed 101)).latchedCause .followingError = true ∧
    (after .passTick (followed 100)).latchedCause .followingError = false := by decide
theorem test_pass_tick : (after .passTick (passing 3)).engine.moveTime = 16384 ∧
    (after .passTick (passing 3)).engine.holdTargets[0] = 8 ∧
    (after .passTick (passing 1535)).engine.nodeState = .ended := by decide
theorem witness_RampTickSlowsThePass : (ramping 109 108).tickComes 4 520833 2083333 ∧
    (ramping 109 108).engine.nodeState = .running ∧ (ramping 109 108).engine.params = some pass ∧
    (ramping 109 108).engine.ticked = true ∧ (ramping 109 108).defaults ∧
    (ramping 109 108).engine.halt.rampStart = some 108 ∧ 108 < (ramping 109 108).engine.tick + 1 ∧
    pass.haltLength ≤ (ramping 123 108).engine.tick + 1 - 108 :=
  ⟨⟨by decide, .inr ⟨3, by decide⟩, rfl, 0, by decide⟩, by decide, by decide, by decide, by decide,
   by decide, by decide, by decide⟩
theorem witness_RampTickSlowsThePass_due : (ramping 116 116).tickComes 4 520833 2083333 ∧
    116 < (ramping 116 116).engine.tick + 1 ∧ reportInstant 1 pass.interval 117 7 ∧
    (ramping 116 116).roster.station = some 1 ∧ (ramping 116 116).line.txQueue.length < 8 ∧
    (ramping 116 116).engine.tick + 1 - 116 < pass.haltLength :=
  ⟨⟨by decide, .inr ⟨3, by decide⟩, rfl, 0, by decide⟩, by decide, by decide, by decide, by decide,
   by decide⟩
/-- Chapter 7, worked ramps: the first slowed tick advances T by 3,840. -/
theorem test_ramp_tick : (after .passTick (ramping 108 108)).engine.moveTime = 446208 ∧
    (after .passTick (ramping 108 108)).engine.nodeState = .halting := by decide
theorem test_ramp_rates : (List.range 5).map (fun j => rampRate 20 16 (j + 1)) =
    [18, 17, 16, 15, 13] := by decide

/-- The CUE of chapter 6 on AXIS_2. -/
def slewing (q : Quantity) (decel : Bool) : State :=
  { rigIn .slewing with engine := { (rigIn .slewing).engine with
      slew := some (.axes .cue 0 16384 #v[none, none, some q, none] decel) } }

def returning : State :=
  { rigIn .returning with engine := { (rigIn .returning).engine with
      slew := some (.path (returnQuantity 655360 4096) 0 false), moveTime := 655360 } }

def arrived : Quantity := { value := 0, dest := 0, start := 0, velocity := 0, speedLimit := 1, accel := 1 }

theorem witness_SlewTickMovesTheRig : (passing 3).engine.nodeState.inPass = true ∧
    (slewing demand3 false).defaults ∧
    (slewing demand3 false).engine.nodeState = .slewing ∧ demand3.distance ≠ 0 ∧
    arrived.distance = 0 ∧ (slewing arrived false).axes[2].commanded.toInt =
      (slewing arrived false).engine.holdTargets[2] ∧
    (slewing demand3 true).engine.nodeState = .slewing ∧
    returning.defaults ∧ returning.engine.nodeState = .returning ∧
    0 < (returnQuantity 655360 4096).distance := by decide
/-- A demand that stands at its destination of 5 steps. -/
def standing : Quantity := { arrived with value := 1280, dest := 1280 }

/-- A slew of AXIS_2 with a hold target of 5 steps, with and without a limit in its way. -/
def owing (inWay decel : Bool) (q : Quantity) : State :=
  let s := slewing q decel
  { s with
    store := MoveStore.reset
    engine := { s.engine with holdTargets := s.engine.holdTargets.set 2 5 }
    sup := { s.sup with limitMax := s.sup.limitMax.set 2 { low := inWay, latch := inWay } } }

/-- A RETURN of AXIS_0 at T = 0 with the given target held, halted or not. -/
def returned (target : Int) (inWay decel : Bool) : State :=
  { returning with
    engine := { returning.engine with
      slew := some (.path arrived 3 decel), moveTime := 0
      holdTargets := returning.engine.holdTargets.set 0 target }
    sup := { rig.sup with limitMax := rig.sup.limitMax.set 0 { low := inWay, latch := inWay } } }

theorem witness_SlewTickMovesTheRig_rest : (rigIn .stopped).engine.nodeState = .stopped ∧
    (rigIn .stopped).defaults ∧ (rigIn .halted).engine.nodeState = .halted ∧
    (owing true false standing).axes[2].commandedAt 50000 ≠
      (owing true false standing).engine.holdTargets[2] ∧
    (owing true false standing).standsOn 2 5 ∧ ¬ (owing false false standing).standsOn 2 5 ∧
    arrived.brake.velocity = 0 ∧ (owing true true standing).defaults ∧
    (returned 0 false false).defaults ∧
    (returned 5 true false).standsOn 0 5 ∧ ¬ (returned 5 false false).standsOn 0 5 ∧
    (returned 0 false true).engine.nodeState = .returning := by decide
/-- A JOG of 0 steps of AXIS_2 while a hold target of 5 steps is still owed. -/
def joggedZero : State :=
  let s := owing false false arrived
  { s with engine := { s.engine with
      slew := some (.axes .jog 0 16384 #v[none, none, some arrived, none] false) } }

/-- A RETURN whose T reaches 0 on its next slew tick, its 16th, with an encoder that reads `e`. -/
def nearlyReturned (e : Word32) : State :=
  { returning with
    engine := { returning.engine with
      slew := some (.path { returnQuantity 1 4096 with accel := 4096 } 15 false), moveTime := 1 }
    axes := rig.axes.set 0 { rig.axes[0] with
      encoder := e, setup := { rig.axes[0].setup with ratio := 1 } } }

theorem witness_SlewTickMovesTheRig_ends : joggedZero.defaults ∧
    joggedZero.engine.nodeState = .slewing ∧ arrived.distance = 0 ∧
    joggedZero.axes[2].commandedAt 50000 ≠ joggedZero.engine.holdTargets[2] ∧
    joggedZero.axes[2].commandedAt 50000 = 0 ∧
    (nearlyReturned 0).defaults ∧ ({ returnQuantity 1 4096 with accel := 4096 } : Quantity).distance ≠ 0 ∧
    ({ returnQuantity 1 4096 with accel := 4096 } : Quantity).advance.distance = 0 ∧
    (15 + 1) % 16 = 0 ∧ testStore.axisPlays 0 = true ∧ testStore.axisPlays 2 = false ∧
    (testStore.evalAxis 0 16384 0).map (fun e => (e.target, e.clamped)) = some (0, false) ∧
    testStore.evalLevel 0 0 = some 200 ∧ testStore.evalLevel 0 1 = none := by decide
theorem witness_SlewTickMovesTheRig_following :
    ({ nearlyReturned 101 with now := 50000 } : State).followsBadly 0 :=
  ⟨by decide, by decide, _, rfl, by decide⟩
theorem test_slew_ends : (after .slewTick joggedZero).engine.nodeState = .idle ∧
    (after .slewTick joggedZero).engine.holdTargets[2] = 0 ∧
    (after .slewTick joggedZero).engine.slew = none ∧
    (after .slewTick (nearlyReturned 0)).engine.path = { onPath := true, tPark := 0, scale := 16384 } ∧
    (after .slewTick (nearlyReturned 0)).levels[0].level = 200 ∧
    (after .slewTick (nearlyReturned 101)).engine.nodeState = .returning ∧
    (after .slewTick (owing true false standing)).engine.nodeState = .idle ∧
    (after .slewTick (owing true true standing)).engine.holdTargets[2] = 0 ∧
    (after .slewTick (owing false false standing)).axes[2].plan.map Plan.total = some 5 ∧
    (after .slewTick (returned 0 false false)).engine.path.onPath = true ∧
    (after .slewTick (returned 5 true false)).engine.nodeState = .halted ∧
    (after .slewTick (returned 0 false true)).engine.nodeState = .halted := by decide
theorem test_slew_tick : (after .slewTick (slewing demand3 false)).engine.holdTargets[2] = 1020 ∧
    (after .slewTick (slewing arrived false)).engine.path.onPath = true := by decide
theorem witness_TimersComeRound : rig.engine.nodeState.inPass = false ∧
    rig.engine.nodeState ≠ .settling ∧ rig.hasRoom ∧
    rig.axes[0].commanded.toInt.natAbs ≤ 8388607 := by decide
theorem test_report_timer : (after .reportTimerExpiry rig).now = 5000000 ∧
    ((after .reportTimerExpiry rig).line.txQueue.map fun e => byteAt e.payload 0) = [18] := by decide
/-- Chapter 10, a lamp through a SET_LEVEL: the active duty takes the pending duty 444. -/
theorem test_pwm_boundary : (let lamp : LevelChannel := { LevelChannel.reset with pendingDuty := 444 }
    (after .pwmPeriodBoundary { rig with levels := rig.levels.set 0 lamp }).levels[0].activeDuty) =
      444 := by decide +kernel

/-- START for F = 5 at rate 4,096, scale 16,384, Lh = 16, k = 1, with one participant. -/
def startBytes : List Byte := [0, 0, 5, 0, 0, 28, 142, 16, 0, 0, 64, 0, 0, 16, 1, 1]

def armed : State := { rigIn .armed with clock := { rig.clock with roll := 3 } }

theorem witness_StartIsJudged : armed.line.state = .receiving ∧ startBytes.length = 16 ∧
    armed.participant = true ∧ armed.roster.station ≠ none ∧ armed.hasRoom ∧
    armed.engine.nodeState ≠ .pending ∧ armed.engine.nodeState.inPass = false ∧
    armed.roster.mismatch = false ∧ fieldAt startBytes 3 4 = armed.validMoveId ∧
    fieldAt startBytes 9 3 = armed.engine.path.scale ∧
    byteAt startBytes 15 = (armed.roster.table.filter RosterEntry.participant).length ∧
    ¬ (fieldAt startBytes 0 3 % 2 ^ 20 ≤ armed.clock.roll + 1) ∧
    (5 ≤ ({ armed.clock with roll := 4 } : FrameClock).roll + 1) ∧
    (rig.engine.nodeState ≠ .armed ∧ rig.line.state = .receiving) ∧
    awaiting.engine.nodeState = .pending ∧ awaiting.line.state = .receiving ∧
    ({ armed with participant := false } : State).line.state = .receiving := by decide
theorem test_start_accepted : (after (.start 9 0 startBytes) armed).engine.nodeState = .pending ∧
    (after (.start 9 0 startBytes) armed).engine.params = some pass := by decide
theorem test_start_declined :
    ((after (.start 9 0 startBytes) rig).line.txQueue.map TxEntry.payload) = [[0, 0, 5, 0]] ∧
    (after (.start 9 0 startBytes) awaiting).sup.counter .strayStarts = 1 := by decide
theorem witness_DeclineActs : awaiting.line.state = .receiving ∧
    ([0, 0, 5, 1] : List Byte).length = 4 ∧ awaiting.engine.params = some pass ∧
    pass.startFrame = fieldAt [0, 0, 5, 1] 0 3 % 2 ^ 20 ∧ awaiting.engine.nodeState = .pending ∧
    (passing 3).engine.nodeState = .running ∧ (passing 3).defaults ∧
    (passing 3).engine.halt.rampStart = none ∧ (passing 3).hasRoom ∧
    (passing 3).sup.origins[3] = none ∧ (passing 3).engine.params = some pass ∧
    pass.startFrame ≠ fieldAt [0, 0, 6, 1] 0 3 % 2 ^ 20 := by decide
/-- The PENDING rig on local marks, heard by a camera within the last 3 s. -/
def awaitingLocal : State :=
  { awaiting with clock := { awaiting.clock with state := .localMarks, lastMark := awaiting.now } }

theorem witness_DeclineActs_local : awaitingLocal.line.state = .receiving ∧
    awaitingLocal.engine.nodeState = .pending ∧ awaitingLocal.engine.params = some pass ∧
    awaitingLocal.clock.state = .localMarks ∧ (awaitingLocal.received 9).localHolds = false ∧
    (after (.decline 9 0 [0, 0, 5, 1]) awaitingLocal).engine.nodeState = .idle ∧
    (after (.decline 9 0 [0, 0, 5, 1]) awaitingLocal).clock.state = .free := by decide
theorem test_decline : (after (.decline 9 0 [0, 0, 5, 1]) awaiting).engine.nodeState = .armed ∧
    (after (.decline 9 0 [0, 0, 5, 1]) (passing 3)).engine.halt.rampStart = some 5 := by decide

/-- HALT for F = 5 with ramp start `ramp` and cause MARK_LOST. -/
def haltBytes (ramp : Byte) : List Byte := [0, 0, 5, 0, 0, 0, ramp, 3]

/-- The pass with an own HALT queued for the ramp start it holds. -/
def halted (sending : Bool) : State :=
  { passing 100 with
    line := { rig.line with txQueue := [reply4 0, { halt4 with sending }] }
    engine := { (passing 100).engine with
      halt := { (passing 100).engine.halt with rampStart := some 108, ownHalt := some 108 } } }

theorem witness_HaltTakesTheEarliestRamp : (passing 100).line.state = .receiving ∧
    (haltBytes 104).length = 8 ∧ (passing 100).engine.params = some pass ∧
    fieldAt (haltBytes 104) 0 3 ≠ 16777215 ∧
    pass.startFrame = fieldAt (haltBytes 104) 0 3 % 2 ^ 20 ∧
    (passing 100).engine.nodeState = .running ∧ (passing 100).engine.halt.rampStart = none ∧
    (passing 100).engine.tick ≤ fieldAt (haltBytes 100) 3 4 ∧
    fieldAt (haltBytes 99) 3 4 < (passing 100).engine.tick ∧
    (halted false).engine.halt.rampStart = some 108 ∧ 108 ≤ fieldAt (haltBytes 108) 3 4 ∧
    (halted false).engine.halt.ownHalt = some 108 ∧ fieldAt (haltBytes 104) 3 4 ≤ 108 ∧
    (halted false).line.txQueue = [reply4 0] ++ halt4 :: [] ∧ (reply4 0).owner ≠ .halt true ∧
    (halted true).line.txQueue = [reply4 0] ++ { halt4 with sending := true } :: [] ∧
    awaiting.engine.nodeState = .pending ∧ awaiting.engine.params = some pass ∧
    (let s : State := { ramping 110 108 with engine := { (ramping 110 108).engine with
       nodeState := .halting } }
     s.engine.nodeState = .halting ∧ s.line.state = .receiving ∧
     s.engine.params = some pass) ∧ rig.line.state = .receiving := by decide
theorem witness_HaltTakesTheEarliestRamp_local : awaitingLocal.line.state = .receiving ∧
    awaitingLocal.engine.nodeState = .pending ∧ awaitingLocal.clock.state = .localMarks ∧
    (awaitingLocal.received 9).localHolds = false ∧
    (after (.halt 9 0 (haltBytes 104)) awaitingLocal).engine.nodeState = .idle ∧
    (after (.genericHalt 9 0 [255, 255, 255, 0, 0, 0, 0, 0]) awaitingLocal).engine.nodeState = .idle := by
  decide
theorem test_halt_takes_the_smaller :
    (after (.halt 9 0 (haltBytes 104)) (halted false)).engine.halt.rampStart = some 104 ∧
    (after (.halt 9 0 (haltBytes 104)) (halted false)).line.txQueue = [reply4 0] := by decide
theorem test_late_halt :
    (after (.halt 9 0 (haltBytes 99)) (passing 100)).engine.halt.rampStart = some 100 ∧
    (after (.halt 9 0 (haltBytes 99)) (passing 100)).sup.notes[2] = true := by decide

def genericBytes : List Byte := [255, 255, 255, 0, 0, 0, 0, 0]

theorem witness_GenericHaltActs : genericBytes.length = 8 ∧ fieldAt genericBytes 0 3 = 16777215 ∧
    rig.line.state = .receiving ∧ rig.engine.nodeState = .idle ∧
    armed.engine.nodeState = .armed ∧ (passing 3).engine.nodeState = .running ∧
    (passing 3).engine.halt.rampStart = none ∧ (ramping 3 4).engine.halt.rampStart ≠ none ∧
    (ramping 3 4).engine.nodeState = .running ∧ (rigIn .halting).engine.nodeState = .halting ∧
    awaiting.engine.nodeState = .pending ∧
    (slewing demand3 false).line.state = .receiving ∧ returning.line.state = .receiving ∧
    armed.sup.origins[4] = none := by decide
theorem test_generic_halt : (after (.genericHalt 9 0 genericBytes) armed).engine.nodeState = .idle ∧
    (after (.genericHalt 9 0 genericBytes) (slewing demand3 false)).engine.slew =
      (slewing demand3 true).engine.slew := by decide

/-! ## Loading (chapter 4) -/

/-- The rig LOADING, its header held, nothing yet received. -/
def loading : State :=
  { rigIn .loading with store := { testStore with
      phase := .loading, axisSetups := MoveStore.reset.axisSetups, cueSetup := none, pool := []
      cueList := [], nextIndex := #v[0, 0, 0, 0, 0, 0], nextCue := 0, length := none } }

/-- A setup of AXIS_0 in 22 bytes: UNSCALED, limits -10,000 and 10,000. -/
def setupBytes : List Byte :=
  [31, 0, 1, 0, 0, 0, 0] ++ signedBytes (-10000) 3 ++ bytesOf 10000 3 ++ bytesOf 2560 3 ++
    bytesOf 512 2 ++ bytesOf 100 2 ++ bytesOf 40 2

/-- Two keys of AXIS_0 at frames 0 and 96, the second with a tangent of 8,000. -/
def keyBytes2 : List Byte :=
  [31, 0x11, 0, 0] ++ bytesOf 0 2 ++ bytesOf 0 4 ++ bytesOf 96 2 ++ bytesOf 768000 4 ++ bytesOf 8000 4

theorem witness_SetupChunksAreKept : loading.line.state = .receiving ∧ loading.addressed 31 ∧
    loading.addressed 1 ∧ ¬ loading.addressed 7 ∧ loading.store.phase = .loading ∧
    rig.addressed 31 ∧ rig.store.phase ≠ .loading ∧ setupBytes.length = 22 ∧
    byteAt setupBytes 1 = (0 : Fin 4).val ∧ byteAt [31, 3, 0, 0, 0] 1 = (3 : Fin 4).val ∧
    3 < byteAt [31, 4] 1 ∧ ([31, 1, 1, 3, 32] : List Byte).length = 5 ∧
    byteAt [31, 1, 1, 3, 32] 1 = (1 : Fin 2).val ∧ 1 < byteAt [31, 2, 1, 3, 32] 1 := by decide
theorem test_axis_setup : (after (.axisSetup 9 0 setupBytes) loading).store.axisSetups[0] =
    testStore.axisSetups[0] := by decide
theorem test_axis_setup_malformed :
    (after (.axisSetup 9 0 [31, 4]) loading).store.loadOrder = some ⟨.none, none⟩ := by decide
theorem test_level_setup : (after (.levelSetup 9 0 [31, 0, 1, 3, 32]) loading).store.levelSetups[0] =
    some { compensation := 1, nominal := 800 } := by decide
theorem test_cue_setup : (after (.cueSetup 9 0 [31, 2]) loading).store.cueSetup = some 2 := by decide
theorem test_stray_load : (after (.cueSetup 9 0 [31, 2]) rig).sup.counter .strayLoads = 1 ∧
    (after (.cueSetup 9 0 [31, 2]) rig).sup.notes[5] = true := by decide
theorem witness_KeysAreWrittenInOrder : loading.line.state = .receiving ∧ loading.addressed 31 ∧
    loading.store.phase = .loading ∧ loading.store.header = testStore.header ∧
    loading.store.blockStarts[0] = some 0 ∧ loading.store.blockStarts[4] = some 4 ∧
    keyBytes2.length = 10 + 10 ∧ fieldAt keyBytes2 2 2 % 4096 = loading.store.nextIndex[0] ∧
    byteAt keyBytes2 1 / 64 = 0 ∧ byteAt keyBytes2 1 % 2 = 1 ∧ byteAt keyBytes2 1 / 2 % 2 = 0 ∧
    (testStore.header.map fun h => (h.counts[0], h.counts[4], h.cueCount)) = some (2, 2, 2) ∧
    ([31, 0, 12, 0, 0, 0, 0, 0, 200] : List Byte).length = 9 ∧
    byteAt [31, 0, 12, 0, 0, 0, 0, 0, 200] 1 = (0 : Fin 2).val ∧
    byteAt [31, 0, 0, 0, 0, 0, 1, 0, 0] 1 = loading.store.nextCue := by decide
theorem test_keys : (after (.keys 9 0 keyBytes2) loading).store.pool =
    [(0, .axis { time := 0, value := 0, shape := 1, tangent := none }),
     (1, .axis { time := 96, value := 768000, shape := 0, tangent := some 8000 })] ∧
    (after (.keys 9 0 keyBytes2) loading).store.nextIndex[0] = 2 := by decide +kernel
/-- Chapter 4, a retransmitted chunk: its first index latches the load-order record. -/
theorem test_keys_repeated : (after (.keys 9 0 keyBytes2)
    { loading with store := { loading.store with nextIndex := #v[2, 0, 0, 0, 0, 0] } }).store.loadOrder =
      some ⟨.track 0, some 0⟩ := by decide
theorem test_level_keys : (after (.levelKeys 9 0 [31, 0, 4, 0, 0, 0, 0, 0, 200]) loading).store.pool =
    [(4, .level { time := 0, value := 200, shape := 1 })] := by decide
theorem test_cues : (after (.cues 9 0 [31, 0, 0, 1, 1, 0, 8, 2, 8]) loading).store.cueList =
    [{ frame := 1, phase := 256, lines := 8, action := 2, pulse := 8 }] := by decide

/-- A BEGIN_LOAD for AXIS_0 with `keys` keys and one cue at 24 fps. -/
def headerBytes (keys : Nat) : List Byte :=
  bytesOf 7310 4 ++ [0, 0, 24, 32] ++ bytesOf keys 2 ++ List.replicate 10 0 ++ [1]

theorem witness_LoadBegins : (asking 6 (headerBytes 4096) rig).hasRoom ∧
    (asking 6 (headerBytes 4096) rig).hands 6 (record 6 (headerBytes 4096)) [] ∧
    (asking 6 (headerBytes 4096) rig).engine.nodeState = .idle ∧
    rig.line.txQueue.length < 7 ∧ 4096 < 4 * ((4097 + 3) / 4) ∧ 4 * ((4096 + 3) / 4) ≤ 4096 ∧
    (asking 6 (headerBytes 1) (rigIn .stopped)).hands 6 (record 6 (headerBytes 1)) [] ∧
    (asking 7 [] loading).hands 7 (record 7 []) [] ∧ (asking 7 [] loading).hasRoom ∧
    (asking 7 [] rig).hands 7 (record 7 []) [] ∧ rig.store.phase = .valid := by decide
/-- A BEGIN_LOAD for AXIS_0 that declares a key of LEVEL_A too. -/
def strayBytes : List Byte :=
  bytesOf 7310 4 ++ [0, 0, 24, 32, 0, 1, 0, 0, 0, 0, 0, 0, 0, 1, 0, 0, 0]

theorem witness_LoadBegins_stray : (asking 6 strayBytes rig).hands 6 (record 6 strayBytes) [] ∧
    byteAt (31 :: strayBytes) 8 / 2 ^ (5 - 4) % 2 ≠ 1 ∧ fieldAt (31 :: strayBytes) (9 + 2 * 4) 2 ≠ 0 ∧
    (∀ k < 4, fieldAt (31 :: strayBytes) (9 + 2 * k) 2 ≠ 0 →
      byteAt (31 :: strayBytes) 8 / 2 ^ (5 - k) % 2 = 1) ∧
    (after .beginLoad (asking 6 strayBytes rig)).line.txQueue.map TxEntry.owner =
      [.trackReply 4] := by decide
theorem test_begin_load : (after .beginLoad (asking 6 (headerBytes 37) rig)).engine.nodeState = .loading ∧
    lastReply (after .beginLoad (asking 6 (headerBytes 4097) rig)) = some [3, 2] := by decide
/-- Chapter 4, allocation examples: the four-axis head. -/
theorem test_allocation : (let h : MoveHeader :=
      { moveId := 0, rounding := .nearest, refRate := 24, cueCount := 0
        enables := #v[true, false, true, true, true, false], counts := #v[37, 0, 120, 5, 2, 0] }
    [h.blockStart 0, h.blockStart 1, h.blockStart 2, h.blockStart 3, h.blockStart 4] =
      [some 0, none, some 40, some 160, some 168] ∧ h.poolDemand = 172) := by decide
theorem test_commit_load : (after .commitLoad (asking 7 [] loading)).store.phase = .validating ∧
    lastReply (after .commitLoad (asking 7 [] rig)) = some [3, 3] := by decide

/-- The test move in validation since instant 0. -/
def validating : State :=
  { rigIn .loading with store := { testStore with
      phase := .validating, length := none, commit := some { requester := 0, began := 0 } } }

theorem witness_ValidationDecides : validating.store.phase = .validating ∧
    validating.store.commit = some { requester := 0, began := 0 } ∧
    validating.engine.nodeState = .loading ∧ validating.line.txQueue.length < 7 ∧
    validating.store.validate = none ∧
    ({ validating.store with cueSetup := none } : MoveStore).validate ≠ none ∧
    ({ validating.store with loadOrder := some ⟨.none, none⟩ } : MoveStore).loadOrder ≠ none := by
  decide
theorem witness_ValidationDecides_faults : (let s := validating.store
    ({ s with pool := s.pool.write 0 (.axis { time := 1, value := 0, shape := 1, tangent := none }) } :
      MoveStore).validate = some ⟨.firstKeyNotZero, .track 0, some 0⟩ ∧
    ({ s with levelSetups := #v[some { compensation := 1, nominal := 0 }, none] } : MoveStore).validate =
      some ⟨.valueRange, .track 4, none⟩ ∧
    ({ s with pool := s.pool.write 1 (.axis { time := 96, value := 0, shape := 3, tangent := none }) } :
      MoveStore).validate = some ⟨.valueRange, .track 0, some 1⟩) := by decide
theorem test_validation_end : (after .validationEnd validating).now = 40480 ∧
    (after .validationEnd validating).store.length = some 96 ∧
    (after .validationEnd validating).store.phase = .valid := by decide
theorem test_validation_fault : (let s := after .validationEnd { validating with store :=
      { validating.store with cueSetup := none } }
    s.store.phase = .empty ∧ (s.line.txQueue.getLast?.map TxEntry.payload) =
      some [0, 3, 6, 6, 255, 255]) := by decide

/-! ## Requests -/

theorem witness_RigMovesAreTaken : (asking 2 [0, 64, 0] rig).hasRoom ∧ (asking 2 [0, 64, 0] rig).defaults ∧
    (asking 2 [0, 64, 0] rig).hands 2 (record 2 [0, 64, 0]) [] ∧ rig.store.phase = .valid ∧
    256 ≤ fieldAt [31, 0, 1, 0] 1 3 ∧ fieldAt [31, 1, 0, 0] 1 3 ≤ 65536 ∧
    (asking 3 [0, 97, 0, 64, 0] rig).hands 3 (record 3 [0, 97, 0, 64, 0]) [] ∧
    (asking 4 [0, 0, 0, 0, 5] rig).hands 4 (record 4 [0, 0, 0, 0, 5]) [] ∧
    testStore.header.map (fun h => (h.enables[0], h.enables[1])) = some (true, false) ∧
    (let s : State := asking 5 [0, 0, 16, 0] { rigIn .halted with engine := { (rigIn .halted).engine with
       path := { onPath := true, tPark := 655360, scale := 16384 } } }
     s.hands 5 (record 5 [0, 0, 16, 0]) [] ∧ s.hasRoom ∧ s.defaults ∧
     s.engine.nodeState = .halted ∧ s.engine.path.onPath = true) ∧
    (asking 2 [0, 64, 0] (rigIn .stopped)).engine.nodeState ∉
      [NodeState.idle, .armed, .halted, .ended] ∧
    MoveStore.reset.phase ≠ .valid ∧ rig.line.txQueue.length < 7 := by decide
theorem witness_RigMovesAreTaken_clamped : (let s := asking 2 [1, 0, 0] { rig with store := beyond }
    s.hands 2 (record 2 [1, 0, 0]) [] ∧ s.defaults ∧ s.sup.exception = none ∧
    (s.store.evalAxis 0 65536 0).map (fun e => (e.overflowScale, e.clamped)) = some (true, true) ∧
    (after .cue s).sup.exception = some ⟨.overflowScale, 0, 0, .request, 0⟩) := by decide
theorem test_cue : (after .cue (asking 2 [0, 64, 0] rig)).engine.nodeState = .slewing ∧
    lastReply (after .cue (asking 2 [0, 64, 0] rig)) = some [0, 0] := by decide
theorem test_seek : lastReply (after .seek (asking 3 [0, 97, 0, 64, 0] rig)) = some [1, 0] ∧
    (after .seek (asking 3 [0, 97, 0, 64, 0] rig)).engine.slew.map (fun
      | .axes _ t .. => t
      | .path .. => 0) = some 6291456 := by decide
theorem test_jog : lastReply (after .jog (asking 4 [0, 0, 0, 39, 17] rig)) = some [1, 0] ∧
    lastReply (after .jog (asking 4 [1, 0, 0, 0, 5] rig)) = some [3, 15] := by decide
theorem test_return : lastReply (after .returnPath (asking 5 [0, 0, 16, 0] (rigIn .halted))) =
    some [3, 14] := by decide

theorem witness_DispositionIsSet : (asking 9 [10, 2] rig).hasRoom ∧
    (asking 9 [10, 2] rig).hands 9 (record 9 [10, 2]) [] ∧
    (asking 9 [10, 2] rig).engine.nodeState = .idle ∧ Cause.followingError.idx.val = 10 ∧
    Cause.grossDeviation.idx.val = 15 ∧ 17 < byteAt [31, 18, 1] 1 ∧ byteAt [31, 17, 1] 1 ≤ 17 ∧
    byteAt [31, 17, 1] 1 ∉ [10, 11, 12, 13, 14, 15] ∧
    (asking 9 [10, 2] (rigIn .armed)).hands 9 (record 9 [10, 2]) [] := by decide
theorem test_set_disposition : (after .setDisposition (asking 9 [10, 2] rig)).sup.dispositions[10] = .warn ∧
    lastReply (after .setDisposition (asking 9 [0, 2] rig)) = some [3, 16] := by decide

theorem witness_SettingsAreWritten : (asking 8 [0, 0, 24, 0, 10, 1, 1, 1] rig).hasRoom ∧
    (asking 8 [0, 0, 24, 0, 10, 1, 1, 1] rig).hands 8 (record 8 [0, 0, 24, 0, 10, 1, 1, 1]) [] ∧
    rig.engine.nodeState = .idle ∧ rig.axes[0].setup.invert ≠ true ∧
    (asking 8 [4, 2, 0, 3, 0, 0, 1, 1, 1, 1, 1] rig).hands 8
      (record 8 [4, 2, 0, 3, 0, 0, 1, 1, 1, 1, 1]) [] ∧
    (asking 10 [1] rig).hands 10 (record 10 [1]) [] ∧
    (asking 13 [0, 5, 220] rig).hands 13 (record 13 [0, 5, 220]) [] ∧
    (rigIn .running).engine.nodeState ∉ [NodeState.idle, .armed, .halted, .ended, .stopped] ∧
    rig.line.txQueue.length < 7 := by decide
theorem witness_SettingsAreWritten_inputs : (let r := [4, 2, 0, 3, 0, 1, 1, 1, 1, 1, 1]
    let s := asking 8 r { rig with sup := { rig.sup with
      setup := { rig.sup.setup with limitSens := .edge, driveSens := .edgeLevel }
      limitMax := rig.sup.limitMax.set 1 { low := true, latch := true } } }
    s.hands 8 (record 8 r) [] ∧ s.sup.setup.limitSens = .edge ∧ s.sup.setup.driveSens = .edgeLevel ∧
    (after .setChannelStation s).sup.limitMax[1] = { low := true, latch := false }) := by decide +kernel
theorem witness_SettingsAreWritten_invert : (let s := asking 8 [0, 0, 24, 0, 10, 1, 1, 1] rig
    let high := { s with axes := s.axes.set 0 { s.axes[0] with stepHigh := true } }
    high.hands 8 (record 8 [0, 0, 24, 0, 10, 1, 1, 1]) [] ∧
    (after .setChannelAxis s).axes[0].dirHigh = !s.axes[0].dirHigh ∧
    (after .setChannelAxis high).axes[0].dirHigh = s.axes[0].dirHigh) := by decide +kernel
theorem test_set_channel_axis :
    (after .setChannelAxis (asking 8 [0, 0, 24, 0, 10, 1, 1, 1] rig)).axes[0].setup =
      { pulseWidth := 25, dirSetup := 10, ratio := 256, invert := true } := by decide +kernel
theorem test_set_channel_station : (after .setChannelStation
    (asking 8 [4, 5, 0, 3, 0, 0, 1, 1, 1, 1, 0] rig)).sup.setup.undervoltage = 1023 := by
  decide +kernel
theorem test_set_reference : lastReply (after .setReference (asking 10 [1] rig)) = some [0, 0] ∧
    lastReply (after .setReference (asking 10 [0] rig)) = some [3, 18] := by decide
/-- Chapter 10, a lamp through a SET_LEVEL: 1,500 on 760 of nominal 800 is CLAMPED at 1,023. -/
theorem test_set_level : (let lamp : LevelChannel := { LevelChannel.reset with supply := some 760 }
    let s := after .setLevel (asking 13 [0, 5, 220] { rig with levels := rig.levels.set 0 lamp })
    s.levels[0].level = 1023 ∧ s.levels[0].pendingDuty = 1023 ∧ s.levels[0].clamped = true) := by
  decide

theorem witness_ReadsReply : (asking 0 [0, 1] rig).hasRoom ∧
    (asking 0 [0, 1] rig).hands 0 (record 0 [0, 1]) [] ∧
    StatusPart.ofCode (byteAt [31, 4, 0] 1) = some .analog ∧ rig.sup.exception = none ∧
    (asking 11 [0, 0, 0] rig).hands 11 (record 11 [0, 0, 0]) [] ∧ rig.reg.history.length ≤ 0 ∧
    rig.reg.capture.holds = none ∧ rig.reg.reference.holds = none ∧
    PassPart.ofCode (byteAt [31, 3, 0, 0] 1) = some .reference ∧
    rig.reg.passContent rig.engine.halt 0 .reference ≠ none ∧
    (asking 12 [63] rig).hands 12 (record 12 [63]) [] := by decide
/-- The rig with everything that the reads of a pass show. -/
def recorded : State :=
  { rig with
    reg := { oneFrame with
      buffer2 := { referenced.buffer2 with
        holds := referenced.buffer2.holds.map fun d =>
          { d with sources := #v[some .commanded, none, none, none] } } }
    sup := { rig.sup with
      readings := some { lampA := 760, lampB := 800, rigSupply := 600, temp := 100,
                         refHigh := 1000, refLow := 23 } } }

theorem witness_ReadsReply_parts :
    (asking 0 [2, 1] recorded).hands 0 (record 0 [2, 1]) [] ∧ recorded.hasRoom ∧
    (asking 0 [4, 0] recorded).hands 0 (record 0 [4, 0]) [] ∧ recorded.sup.readings ≠ none ∧
    (recorded.reg.history.reverse[0]?.map Summary.ending) = some .inProgress ∧
    recorded.reg.reference.holds ≠ none ∧
    recorded.reg.capture.holds.map PassDescriptor.framesRecorded = some 1 ∧
    (asking 11 [5, 0, 1] recorded).hands 11 (record 11 [5, 0, 1]) [] := by decide
/-- What a command's reply carries from byte 3. -/
def replied (c : Instr) (s : State) : List Byte :=
  ((after c s).line.txQueue.flatMap TxEntry.payload).drop 3
theorem test_status_analog : replied .status (asking 0 [4, 0] recorded) =
    [2, 248, 3, 32, 2, 88, 0, 100, 3, 232, 0, 23, 2, 88, 3, 32, 0, 15] := by decide
theorem test_read_frames : replied .readPass (asking 11 [4, 0, 0] recorded) =
      [0, 1, 0, 0, 1, 0, 0, 0, 100] ++ List.replicate 12 0 ∧
    replied .readPass (asking 11 [3, 0, 0] recorded) = [1, 0, 1, 16, 0, 0, 64, 0, 0, 1, 127] ∧
    replied .readPass (asking 11 [0, 0, 0] recorded) =
      [0, 1, 0, 0, 5, 16, 0, 0, 64, 0, 0, 0, 0, 1, 0, 1, 255, 31, 0, 0, 0] := by decide
/-- Chapter 9: the summary of a pass in HALTING names its cause and that it was late (assumption 42). -/
theorem test_read_halting_pass : (let s : State := { recorded with engine := { (ramping 9 8).engine with
      nodeState := .halting
      halt := { (ramping 9 8).engine.halt with cause := some ⟨4, 9⟩, late := true } } }
    (asking 11 [0, 0, 0] s).hands 11 (record 11 [0, 0, 0]) [] ∧
    replied .readPass (asking 11 [0, 0, 0] s) =
      [0, 1, 64, 0, 5, 16, 0, 0, 64, 0, 0, 0, 0, 1, 0, 1, 4, 9, 0, 0, 0]) := by decide
theorem test_status_flags : ((after .status (asking 0 [0, 0] rig)).line.txQueue.map fun e =>
    e.payload.take 4) = [[0, 0, 0, 1]] ∧
    (after .status (asking 0 [0, 1] rig)).sup.resetCause = .none := by decide
theorem test_read_pass : ((after .readPass (asking 11 [3, 0, 0] rig)).line.txQueue.map fun e =>
    e.payload.length) = [14] ∧
    lastReply (after .readPass (asking 11 [0, 0, 0] rig)) = some [3, 18] := by decide
theorem test_read_deviations : ((after .readDeviations (asking 12 [0] rig)).line.txQueue.map
    fun e => e.payload) = [[0, 0, 0, 0, 0, 0, 0, 0, 0]] := by decide

def stoppedBy (low : Bool) : State :=
  { asking 1 [] (rigIn .stopped) with sup := { rig.sup with estopLow := low } }

theorem witness_RecoveryRequestsAct : (stoppedBy true).hasRoom ∧ (stoppedBy true).line.txQueue.length < 6 ∧
    (stoppedBy true).hands 1 (record 1 []) [] ∧ (stoppedBy true).sup.estopLow = true ∧
    (stoppedBy false).sup.estopLow = false ∧ (stoppedBy false).hands 1 (record 1 []) [] ∧
    (asking 14 [] (rigIn .stopped)).hands 14 (record 14 []) [] ∧
    (asking 14 [] (rigIn .armed)).hands 14 (record 14 []) [] ∧
    (asking 15 [] rig).hands 15 (record 15 []) [] ∧ (record 15 []).target = 31 ∧
    rig.line.txOff = false ∧
    ({ (asking 15 [] rig).line with txOff := true } : LineInterface).txOff = true := by decide
theorem witness_RecoveryRequestsAct_excluded :
    (asking 1 [] (rigIn .excluded)).hands 1 (record 1 []) [] ∧
    (asking 14 [] (rigIn .excluded)).hands 14 (record 14 []) [] ∧
    (asking 15 [] (rigIn .excluded)).hands 15 (record 15 []) [] ∧
    (rigIn .excluded).engine.nodeState = .excluded ∧
    (after .stationReset (asking 14 [] (rigIn .excluded))).engine.nodeState = .excluded ∧
    (after .stationReset (asking 14 [] (rigIn .excluded))).sup.resetCause = .stationReset ∧
    (after .rosterReopen (asking 15 [] (rigIn .excluded))).engine.nodeState = .settling ∧
    (after .rosterReopen (asking 15 [] (rigIn .excluded))).roster.resume = rig.roster.resume := by
  decide
theorem test_clear_fault : (after .clearFault (stoppedBy false)).engine.nodeState = .idle ∧
    lastReply (after .clearFault (stoppedBy true)) = some [3, 17] := by decide +kernel
theorem test_station_reset : (after .stationReset (asking 14 [] (rigIn .stopped))).sup.resetCause =
    .stationReset ∧
    (after .stationReset (asking 14 [] (rigIn .stopped))).engine.nodeState = .idle := by decide
theorem test_roster_reopen : (after .rosterReopen (asking 15 [] rig)).line.txQueue.map TxEntry.owner =
    [.rosterReopenReply] := by decide

/-! ## Pulses, encoders, inputs and the scan (chapters 8 to 11) -/

/-- AXIS_0 with two pulses of a plan left, its last edge at instant 900. -/
def pulsing (high : Bool) : State :=
  { rigIn .running with axes := rig.axes.set 0 { rig.axes[0] with
      stepHigh := high, trailing := some 1150, lastEdge := some 900, encoderInputs := (true, true)
      plan := some { increasing := true, first := 0, interval := 500, extra := 0, total := 4,
                     emitted := 2, pulseWidth := 250, dirSetup := 250 } } }

theorem witness_PulsesAndEncodersCount : (pulsing false).axes[0].plan ≠ none ∧
    (pulsing false).axes[0].stepHigh = false ∧ (pulsing true).axes[0].stepHigh = true ∧
    (pulsing false).engine.nodeState ∉ [NodeState.idle, .armed, .pending] ∧
    (pulsing true).axes[0].trailing = some 1150 ∧ rig.axes[0].trailing = none ∧
    (pulsing false).axes[0].encoderInputs = (true, true) ∧ max rig.now 0 = 0 ∧ 0 < max rig.now 9 ∧
    1 ≤ ({ rig.axes[0].setup with ratio := 256 } : ChannelSetup).ratio := by decide
/-- The planned edge at 1,000 waits until 1,400 to keep the spacing of 500. -/
theorem test_leading_edge : (after (.stepLeadingEdge 0) (pulsing false)).now = 1400 ∧
    (after (.stepLeadingEdge 0) (pulsing false)).axes[0].commanded = 1 := by decide
theorem test_trailing_edge : (after (.stepTrailingEdge 0) (pulsing true)).now = 1150 ∧
    (after (.stepTrailingEdge 0) (pulsing true)).axes[0].stepHigh = false := by decide
theorem test_encoder_change :
    (after (.encoderChange 9 0 false true) (pulsing false)).axes[0].encoder = 1 ∧
    (after (.encoderChange 9 0 false false) (pulsing false)).axes[0].encoderErrors = 1 ∧
    (after (.encoderChange 9 0 false true) (pulsing false)).axes[0].encoderAt 9 = 0 ∧
    (after (.encoderChange 0 0 false true) (pulsing false)).axes[0].encoder = 0 := by decide
/-- Chapter 8, following error values with a ratio of 4. -/
theorem test_following_error : (let x : AxisChannel :=
      { rig.axes[0] with setup := { rig.axes[0].setup with ratio := 4 }
                         commanded := 1000, encoder := 3997 }
    x.encoderSteps 0 = 999 ∧ x.followingError 0 = 1) := by decide

theorem witness_ProtectionInputsAct : rig.defaults ∧ (passing 3).engine.nodeState = .running ∧
    (passing 3).engine.halt.rampStart = none ∧ (passing 3).hasRoom ∧ (passing 3).defaults ∧
    armed.engine.nodeState = .armed ∧ (pulsing false).axes[0].plan ≠ none ∧
    (stoppedBy true).engine.nodeState = .stopped ∧ (stoppedBy true).defaults := by decide
theorem witness_ProtectionInputsAct_states :
    (∀ ns ∈ [NodeState.settling, .excluded, .idle, .loading, .slewing, .armed, .pending, .halting, .halted,
        .ended, .returning, .stopped], (rigIn ns).engine.nodeState = ns ∧ (rigIn ns).defaults ∧
      (rigIn ns).line.txQueue.length < 6 ∧ (rigIn ns).engine.halt.rampStart = none) ∧
    (ramping 9 8).engine.halt.rampStart ≠ none ∧
    (slewing demand3 false).engine.slew ≠ none ∧ (slewing demand3 false).defaults ∧
    returning.engine.slew ≠ none ∧ returning.defaults ∧
    validating.engine.nodeState = .loading ∧ validating.store.phase = .validating ∧
    validating.store.commit ≠ none ∧ validating.line.txQueue.length < 6 := by decide
theorem test_estop_by_state :
    ((after (.estopFalling 9) validating).line.txQueue.map TxEntry.payload).contains
      [0, 3, 4, 7, 255, 255] = true ∧
    (after (.estopFalling 9) (rigIn .settling)).roster.resume = .stopped ∧
    (after (.limitInputFalling 9 0 .max) (slewing demand3 false)).engine.nodeState = .slewing := by decide
theorem test_limit_falls : (after (.limitInputFalling 9 0 .max) (pulsing false)).axes[0].plan = none ∧
    (after (.limitInputFalling 9 0 .min) (pulsing false)).latchedCause .limitSwitch = true := by
  decide
theorem test_limit_rises : (after (.limitInputRising 9 0 .max)
    (after (.limitInputFalling 9 0 .max) rig)).sup.limitMax[0] = { low := false, latch := false } := by
  decide
theorem test_drive_falls :
    (after (.driveFaultInputFalling 9 1) (passing 3)).engine.nodeState = .stopped ∧
    (after (.driveFaultInputFalling 9 1) (passing 3)).sup.axisSets[1] = 2 := by decide
theorem test_drive_rises : (after (.driveFaultInputRising 9 1)
    (after (.driveFaultInputFalling 9 1) rig)).sup.drive[1].low = false := by decide
theorem test_estop_falls : (after (.estopFalling 9) (passing 3)).engine.nodeState = .stopped ∧
    ((after (.estopFalling 9) (passing 3)).line.txQueue.map fun e => e.payload.take 3) =
      [[0, 0, 5], [28, 0, 0]] := by decide
theorem test_estop_rises : (after (.estopRising 9) (stoppedBy true)).sup.estopLow = false ∧
    (after (.estopRising 9) (stoppedBy true)).engine.nodeState = .stopped := by decide

/-- A scan with the given supply and references. -/
def scan (supply high low : BitVec 10) : ScanReadings :=
  { lampA := 760, lampB := 800, rigSupply := supply, temp := 100, refHigh := high, refLow := low }

/-- The pass after three scans below the undervoltage threshold. -/
def sagging : State :=
  { passing 3 with sup := { rig.sup with
      firstScan := false, supply := { live := false, run := 3, recovery := 0 } } }

theorem witness_ScanIsJudged : rig.sup.firstScan = true ∧ sagging.sup.firstScan = false ∧
    sagging.defaults ∧ 1000 ≤ (scan 599 1000 23).refHigh.toNat ∧
    (scan 599 1000 23).refLow.toNat ≤ 23 ∧ ¬ (scan 599 999 23).refHigh.toNat ≥ 1000 ∧
    ¬ (scan 599 1000 24).refLow.toNat ≤ 23 ∧
    (scan 599 1000 23).rigSupply.toNat < sagging.sup.setup.undervoltage ∧
    ¬ (scan 600 1000 23).rigSupply.toNat < sagging.sup.setup.undervoltage ∧
    sagging.sup.supply.live = false ∧ 3 ≤ sagging.sup.supply.run ∧
    sagging.engine.nodeState = .running ∧ sagging.engine.halt.rampStart = none ∧
    min 1023 (sagging.sup.setup.undervoltage + 8) ≤ (scan 608 1000 23).rigSupply.toNat ∧
    ¬ min 1023 (sagging.sup.setup.undervoltage + 8) ≤ (scan 607 1000 23).rigSupply.toNat := by
  decide
/-- The rig with LEVEL_A at 900, its compensation in force, and a run of three scans of each kind. -/
def lit (hot : Bool) : State :=
  { rig with
    levels := rig.levels.set 0 { LevelChannel.reset with level := 900 }
    sup := { rig.sup with firstScan := false, temp := { live := hot, run := 3, recovery := 3 } } }

theorem witness_ScanIsJudged_lamps : (lit false).defaults ∧ (lit false).sup.firstScan = false ∧
    (lit false).store.phase = .valid ∧
    (lit false).store.header.map (fun h => (h.enables[4], h.enables[5])) = some (true, false) ∧
    (lit false).store.levelSetups[0] = some { compensation := 1, nominal := 800 } ∧
    2 * 399 < 800 ∧ 800 ≤ 2 * (scan 600 1000 23).lampA.toNat ∧
    (lit false).sup.setup.temperature < ({ scan 600 1000 23 with temp := 1023 } : ScanReadings).temp.toNat ∧
    (lit true).sup.temp.live = true ∧ (lit true).sup.temp.recovery = 3 ∧
    (scan 600 1000 23).temp.toNat ≤ (lit true).sup.setup.temperature - 8 := by decide
theorem test_scan_compensates :
    (after (.scanComplete (scan 600 1000 23)) (lit false)).levels[0].pendingDuty = 947 ∧
    (after (.scanComplete { scan 600 1000 23 with lampA := 399 }) (lit false)).levels[0].supplyLow = true ∧
    (after (.scanComplete { scan 600 1000 23 with temp := 1023 }) (lit false)).latchedCause .tempHigh =
      true ∧
    (after (.scanComplete (scan 600 1000 23)) (lit true)).sup.temp.live = false := by decide
theorem test_fourth_low_scan : (after (.scanComplete (scan 599 1000 23)) sagging).latchedCause .supplyUv =
    true ∧ (after (.scanComplete (scan 600 1000 23)) sagging).sup.supply.run = 0 := by decide
theorem test_reference_check :
    (after (.scanComplete (scan 599 999 23)) sagging).latchedCause .adcFault = true ∧
    (after (.scanComplete (scan 599 999 23)) sagging).sup.supply.run = 3 := by decide

/-! ## Arming (R91, R92), and what a tick does to frames and cues -/

/-- The six arm conditions, each in a form that is decided. -/
theorem armable_of {s : State}
    (h : (s.store.phase = .valid ∧ s.engine.path.onPath = true ∧ s.engine.path.tPark = 0 ∧
        (s.clock.state = .locked ∨ s.clock.state = .localMarks ∧ s.localHolds = true) ∧
        s.roster.phase = .closed ∧ s.roster.ownPosition ≠ none ∧ s.roster.mismatch = false) ∧
      (∀ a : Fin 4, s.store.header.map (fun h => h.enables[a.val]) = some true →
        (s.store.evalAxis 0 s.engine.path.scale a).map AxisEval.target =
          some s.axes[a].commanded.toInt) ∧
      s.sup.estopLow = false ∧
      (∀ a : Fin 4, ∀ side ∈ [LimitEnd.min, .max], (s.sup.limit a side) = ⟨false, false⟩) ∧
      (∀ a : Fin 4, s.sup.drive[a] = ⟨false, false⟩) ∧
      s.line.txOff = false ∧ s.line.lineStuck = false ∧ s.sup.supply.live = false) : s.armable := by
  obtain ⟨⟨h1, h2, h3, h4, h5⟩, hAxes, hEstop, hLimits, hDrives, hRest⟩ := h
  refine ⟨h1, ⟨h2, h3⟩, fun a ha => ?_, h4, h5, hEstop, fun a side => ?_, fun a => ?_, hRest⟩
  · obtain ⟨ev, hev, htarget⟩ := Option.map_eq_some_iff.1 (hAxes a ha)
    exact ⟨ev, hev, htarget.symm⟩
  · simp [hLimits a side (by cases side <;> simp)]
  · simp [hDrives a]

/-- The rig parked on its path at T = 0 and scale 16,384, in a node state. -/
def parked (ns : NodeState) : State :=
  { rigIn ns with engine := { (rigIn ns).engine with
      path := { onPath := true, tPark := 0, scale := 16384 } } }

theorem witness_arming : (parked .idle).armable ∧ (parked .armed).armable ∧ ¬ rig.armable :=
  ⟨armable_of (by decide), armable_of (by decide), fun h => absurd h.2.1.1 (by decide)⟩

/-- The parked rig SETTLING, three announces sent. -/
def settlingParked : State :=
  { parked .settling with roster := { rig.roster with
      phase := .settling, announceCount := 3, ownPosition := some 0 } }

/-- The parked rig in ACQUIRING, one period short of locking. -/
def lockingParked : State :=
  { parked .idle with clock := (acquiring 3).clock }

theorem witness_RosterCloses_armed : settlingParked.roster.phase = .settling ∧
    settlingParked.roster.resume = .idle ∧ ({ settlingParked with roster :=
      { settlingParked.roster with phase := .closed } } : State).armable ∧
    (after .rosterClosing settlingParked).engine.nodeState = .armed :=
  ⟨by decide, by decide, armable_of (by decide), by decide⟩
theorem witness_AcquiringMeasures_armed : lockingParked.engine.nodeState = .idle ∧
    4 ≤ lockingParked.clock.consistentRun + 1 ∧ ({ lockingParked with clock :=
      (after (.realMark 2083000 false) lockingParked).clock } : State).armable ∧
    (after (.realMark 2083000 false) lockingParked).engine.nodeState = .armed :=
  ⟨by decide, by decide, armable_of (by decide), by decide⟩

/-- A CUE of AXIS_0 that its next slew tick completes, its clock in a state. -/
def cued (cs : ClockState) : State :=
  { rigIn .slewing with
    clock := { rig.clock with state := cs }
    engine := { (rigIn .slewing).engine with
      slew := some (.axes .cue 0 16384 #v[some arrived, none, none, none] false) } }

theorem witness_SlewTickMovesTheRig_armed : (cued .locked).defaults ∧
    ({ cued .locked with engine := (parked .slewing).engine } : State).armable ∧
    (after .slewTick (cued .locked)).engine.nodeState = .armed ∧
    (after .slewTick (cued .free)).engine.nodeState = .idle ∧
    (after .slewTick (nearlyReturned 0)).engine.nodeState = .armed :=
  ⟨by decide, armable_of (by decide), by decide, by decide, by decide⟩

/-- The move in validation on the parked rig, and the parked rig STOPPED with a CLEAR_FAULT waiting. -/
def validatingParked : State := { parked .loading with store := validating.store }
def stoppedParked : State := asking 1 [] (parked .stopped)

theorem witness_ValidationDecides_armed : validatingParked.store.validate = none ∧
    ({ validatingParked with store := (after .validationEnd validatingParked).store } : State).armable ∧
    (after .validationEnd validatingParked).engine.nodeState = .armed :=
  ⟨by decide, armable_of (by decide), by decide⟩
theorem witness_RecoveryRequestsAct_armed : stoppedParked.hands 1 (record 1 []) [] ∧
    stoppedParked.armable ∧ (after .clearFault stoppedParked).engine.nodeState = .armed ∧
    (asking 14 [] (parked .stopped)).armable ∧
    (after .stationReset (asking 14 [] (parked .stopped))).engine.nodeState = .armed :=
  ⟨by decide, armable_of (by decide), by decide +kernel, armable_of (by decide), by decide +kernel⟩

/-- A SET_CHANNEL of the station at the parked rig in ARMED, with limit sensing code `sens`. -/
def stationParked (sens : Byte) : State :=
  asking 8 [4, 2, 0, 3, 0, 0, 1, 1, sens, 1, 1] (parked .armed)

theorem witness_SettingsAreWritten_armed :
    (stationParked 1).hands 8 (record 8 [4, 2, 0, 3, 0, 0, 1, 1, 1, 1, 1]) [] ∧
    ({ stationParked 1 with sup := (after .setChannelStation (stationParked 1)).sup } : State).armable ∧
    (after .setChannelStation (stationParked 1)).engine.nodeState = .armed :=
  ⟨by decide, armable_of (by decide +kernel), by decide +kernel⟩

/-- The parked rig one pulse of AXIS_0 short of its target of 0. -/
def pulseShort : State :=
  { parked .idle with axes := (pulsing false).axes.set 0 { (pulsing false).axes[0] with commanded := -1 } }

/-- The parked rig with the MAX limit input of AXIS_0 low, its latch clear, judged by its level. -/
def limitedParked : State :=
  { parked .idle with sup := { rig.sup with
      setup := { rig.sup.setup with limitSens := .edgeLevel }
      limitMax := rig.sup.limitMax.set 0 { low := true, latch := false } } }

theorem witness_PulsesAndEncodersCount_armed : pulseShort.axes[0].plan ≠ none ∧
    pulseShort.engine.nodeState = .idle ∧
    ({ pulseShort with axes := (after (.stepLeadingEdge 0) pulseShort).axes } : State).armable ∧
    (after (.stepLeadingEdge 0) pulseShort).engine.nodeState = .armed :=
  ⟨by decide, by decide, armable_of (by decide), by decide⟩
theorem witness_ProtectionInputsAct_armed : limitedParked.engine.nodeState = .idle ∧
    ({ limitedParked with sup := (after (.limitInputRising 9 0 .max) limitedParked).sup } : State).armable ∧
    (after (.limitInputRising 9 0 .max) limitedParked).engine.nodeState = .armed :=
  ⟨by decide, armable_of (by decide), by decide⟩

theorem witness_LockedClockTracks_pass : recording.defaults ∧ recording.clock.state = .locked ∧
    recording.engine.params = some pass ∧ recording.engine.ticked = true ∧ 16 ≤ pass.haltLength ∧
    recording.engine.nodeState = .running ∧ recording.engine.halt.rampStart = none ∧
    recording.clock.tickIndex = some 3 ∧
    (recording.engine.tick + (15 - 3) + 1) * pass.rate < recording.store.tEnd := by decide
/-- R47, R155: from tick 3 of index 3 a tracked mark brings ticks 4 to 15 and tick 0 of the next frame. -/
theorem test_tracked_mark_in_a_pass : (let u := after (.realMark 2083000 false) recording
    u.engine.tick = 16 ∧ u.reg.openFrame = some 1 ∧ u.engine.nodeState = .running) := by decide +kernel

/-- The last full-rate tick of the pass, with cues of each action at its end and a pulse on line 0. -/
def endingCues (cs : ClockState) : State :=
  let at96 := fun (lines : BitVec 8) action =>
    ({ frame := 96, phase := 0, lines := lines, action := action, pulse := 8 } : CueEntry)
  { passing 1535 with
    clock := { rig.clock with state := cs }
    cues := rig.cues.set 0 { restHigh := false, active := true, pulseEnd := some 1 }
    store := { testStore with cueList := [at96 6 0, at96 2 1, at96 8 2] } }

theorem witness_PassTickAdvancesThePass_cues :
    ((endingCues .coasting).store.crossings (some 6287360) 6291456).map CueEntry.action = [0, 1, 2] ∧
    ((endingCues .coasting).cueAfter (some 6287360) 6291456 3).pulseEnd = some 8 ∧
    (endingCues .coasting).clock.state = .coasting ∧ (endingCues .locked).clock.state = .locked ∧
    (testStore.crossings (some 77824) 81920).map CueEntry.lines = [8] := by decide +kernel
/-- R88, R176, R178: SET, CLEAR and PULSE on the ending tick, and the pulse's end with COASTING. -/
theorem test_cues_of_a_tick :
    (List.range 4).map (fun i => (after .passTick (endingCues .locked)).cues[i]?.map
      fun l => (l.active, l.pulseEnd)) =
      [some (false, none), some (false, none), some (true, none), some (true, some 8)] ∧
    (after .passTick (endingCues .locked)).engine.nodeState = .ended ∧
    ((after .passTick (endingCues .coasting)).cues[3].active = false) ∧
    ((after .passTick (passing 19)).cues[3].pulseEnd = some 8) := by decide +kernel

/-- The rig with LIMIT_SWITCH (HALT_RIG) and ADC_FAULT (WARN) latched, ESTOP low, TX_OFF and a limit in
force, on a clock in HOLDOVER. -/
def faulty : State :=
  { limited with
    clock := { rig.clock with state := .holdover }
    line := { rig.line with txOff := true }
    sup := { limited.sup with
      estopLow := true
      latched := (rig.sup.latched.set Cause.limitSwitch.idx true).set Cause.adcFault.idx true } }

theorem witness_TimersComeRound_faults : faulty.defaults ∧ faulty.engine.nodeState.inPass = false ∧
    faulty.sup.dispositions[Cause.limitSwitch.idx] = .haltRig ∧
    faulty.sup.dispositions[Cause.adcFault.idx] = .warn ∧
    ¬ MoveStore.reset.phase = .valid := by decide
/-- Section 12.1: every bit of the fault summary, and the clock state code 3 of HOLDOVER. -/
theorem test_fault_summary :
    ((after .reportTimerExpiry faulty).line.txQueue.map fun e => byteAt e.payload 6) = [251] ∧
    ((after .reportTimerExpiry rig).line.txQueue.map fun e => (byteAt e.payload 6, fieldAt e.payload 7 4)) =
      [(2, 7310)] := by decide

/-! ## Outcomes, frames and comparisons by command -/

/-- A telegram of this owner at the end of its attempt, the node SETTLING with one announce sent. -/
def ending (owner : TxOwner) : State :=
  let e : TxEntry := { TxEntry.new 5 4 14 [0, 0, 0] owner with sending := true }
  { decided e with roster := { State.reset.roster with schedule := .offered, announceCount := 1 } }

theorem witness_outcomes : ∀ owner ∈ [TxOwner.stationResetReply true, .rosterReopenReply, .announce],
    (ending owner).line.state = .transmitting ∧ (ending owner).line.clashRun + 1 < 16 ∧
    (ending owner).line.txQueue.map TxEntry.owner = [owner] ∧
    (ending owner).line.txQueue.map TxEntry.sending = [true] ∧
    (ending owner).roster.phase = .settling := by decide
theorem test_outcomes :
    [after (.transmitComplete 9), after (.clash 9)].map (fun c =>
      ((c (ending (.stationResetReply true))).line.flushDue,
       (c (ending .rosterReopenReply)).line.reopenDue,
       (c (ending .announce)).roster.announceCount)) = [(true, true, 2), (true, true, 1)] := by
  decide

theorem witness_markOpens : recording.reg.recording = true ∧ recording.reg.openFrame = some 0 ∧
    recording.reg.capture.holds ≠ none ∧ recording.cellsWf = true ∧
    recording.sup.dispositions[15] ≠ .stopNow ∧ recording.engine.nodeState.inPass = true ∧
    recording.midpointTaken 2083000 0 = some (-6, .encoder) ∧
    (after (.realMark 2083000 false) recording).engine.nodeState.inPass = true := by decide +kernel
/-- R147, R148: the next OPEN closes a frame whose shutter is still open, and opens the next. -/
theorem test_open_closes_the_frame : (let u := after (.realMark 2083000 false) recording
    (u.reg.capture.frames.read 0).map (fun row => row[0]) = some (some (-6)) ∧
    u.reg.capture.holds.map PassDescriptor.framesRecorded = some 1 ∧
    u.axes[0].openCapture = some { value := 0, roll := 1, source := .commanded }) := by decide +kernel

/-- The pass recording `frame` against a reference whose AXIS_0 stood at `v` counts in frame 0. -/
def against (frame : Nat) (v : Int) (d : Disposition) : State :=
  { recording with
    sup := { rig.sup with dispositions := rig.sup.dispositions.set 15 d }
    reg := { recording.reg with
      comparable := true, openFrame := some frame
      buffer2 :=
        { holds := some { passNumber := 1, rate := 4096, scale := 16384, framesRecorded := 1,
                          sources := #v[some .encoder, none, none, none], ending := .ended }
          frames := [(0, #v[some v, none, none, none])] } } }

theorem witness_FallingEdgeClosesTheFrame_compared : (against 0 155 .warn).cellsWf = true ∧
    (against 0 155 .warn).axisCompared 9 0 0 = true ∧
    (against 0 155 .warn).deviationOf 9 0 0 = some (-161) ∧
    (against 0 154 .warn).deviationOf 9 0 0 = some (-160) ∧
    (against 0 155 .haltRig).sup.dispositions[15] = .haltRig ∧
    (against 0 155 .haltRig).engine.nodeState = .running ∧
    (against 0 155 .haltRig).engine.halt.rampStart = none ∧
    (against 8192 155 .warn).midpointTaken 9 0 ≠ none ∧ (against 8192 155 .warn).reg.recording = true := by
  decide +kernel
/-- R156 to R159 with tolerance 40: a deviation of 161 is GROSS, one of 160 OVER; frame 8,192 is not kept. -/
theorem test_frame_is_compared : (let fall := after (.shutterFall 9)
    (fall (against 0 155 .warn)).reg.deviations = [⟨0, 0, -161, .gross⟩] ∧
    (fall (against 0 155 .warn)).latchedCause .grossDeviation = true ∧
    (fall (against 0 155 .warn)).sup.axisSets[5] = 1 ∧
    (fall (against 0 154 .warn)).reg.deviations = [⟨0, 0, -160, .over⟩] ∧
    (fall (against 0 154 .warn)).latchedCause .grossDeviation = false ∧
    (fall (against 0 155 .haltRig)).engine.halt.rampStart ≠ none ∧
    (fall (against 8192 155 .warn)).sup.notes[4] = true ∧
    (fall (against 8192 155 .warn)).reg.comparisons = 0) := by decide +kernel

/-- PENDING one frame before F, with a reference of scale `scale` and this pass's rate. -/
def beforeCompared (scale : Nat) : State :=
  { beforeF with reg := { referenced with
      buffer2 := { referenced.buffer2 with
        holds := referenced.buffer2.holds.map fun d => { d with scale := scale } } } }

theorem witness_MarkFBeginsThePass_comparable : (beforeCompared 16384).clock.state = .locked ∧
    (beforeCompared 16384).engine.nodeState = .pending ∧
    (beforeCompared 16384).reg.reference.holds.map (fun d => (d.rate, d.scale)) =
      some (pass.rate, pass.scale) ∧ (beforeCompared 16384).reg.recording = false := by decide
theorem test_comparable_at_pass_start :
    (after (.realMark 2083333 false) (beforeCompared 16384)).reg.comparable = true ∧
    (after (.realMark 2083333 false) (beforeCompared 16385)).reg.comparable = false := by
  decide +kernel

/-- R189: a STATUS of FLAGS with the clear option keeps the inputs, conditions, readings and setup. -/
theorem test_status_flags_clear : (let s := asking 0 [0, 1] recorded
    let s := { s with sup := { s.sup with
      limitMax := limited.sup.limitMax, estopLow := true, latched := faulty.sup.latched } }
    (s.hands 0 (record 0 [0, 1]) []) ∧
    (after .status s).sup = { s.sup with
      resetCause := .none, latched := rig.sup.latched, notes := rig.sup.notes }) := by decide +kernel

end Sys2Proof.Tests
end
end

section
/-! PROOFS. The transmit queue (R12, R13, R15): what its list functions do, and what an offered telegram, an
outcome and an emptying leave of the state. -/

namespace Sys2Proof.Machine

/-! ## The list functions of the queue -/

/-- The first entry that satisfies `p` becomes `f` of it. -/
theorem updateFirst_append {p : TxEntry → Bool} {f : TxEntry → TxEntry} {before behind : List TxEntry}
    {x : TxEntry} (hb : ∀ y ∈ before, p y = false) (hx : p x = true) :
    updateFirst p f (before ++ x :: behind) = before ++ f x :: behind := by
  induction before with
  | nil => simp [updateFirst, hx]
  | cons y ys ih =>
    obtain ⟨hy, hys⟩ := List.forall_mem_cons.1 hb
    simp [updateFirst, hy, ih hys]

/-- An update keeps, entry by entry, what its function keeps. -/
theorem updateFirst_map {α : Type} {g : TxEntry → α} {p : TxEntry → Bool} {f : TxEntry → TxEntry}
    (h : ∀ x, p x = true → g (f x) = g x) (q : List TxEntry) :
    (updateFirst p f q).map g = q.map g := by
  induction q with
  | nil => rfl
  | cons x xs ih =>
    simp only [updateFirst]
    split
    · simp [h x ‹_›]
    · simp [ih]

/-- A list with an entry that satisfies `p` splits at the first one. -/
theorem exists_first {p : TxEntry → Bool} {q : List TxEntry} (h : q.any p = true) :
    ∃ before x behind, q = before ++ x :: behind ∧ p x = true ∧ ∀ y ∈ before, p y = false := by
  obtain ⟨x, hx⟩ := Option.isSome_iff_exists.1 (by simpa [List.find?_isSome] using h :
    (q.find? p).isSome = true)
  obtain ⟨hp, before, behind, rfl, hb⟩ := List.find?_eq_some_iff_append.1 hx
  exact ⟨before, x, behind, rfl, hp, by simpa using hb⟩

theorem placeEntry_perm (e : TxEntry) (q : List TxEntry) : (placeEntry e q).Perm (e :: q) := by
  induction q with
  | nil => exact .refl _
  | cons x xs ih =>
    simp only [placeEntry]
    split
    · exact .refl _
    · exact (ih.cons x).trans (.swap e x xs)

/-- R12: in an ordered queue the new entry stands after every entry of lower or equal value and before every
one of higher value. -/
theorem placeEntry_of_ordered (e : TxEntry) {q : List TxEntry}
    (h : q.Pairwise fun a b => a.value ≤ b.value) :
    placeEntry e q = q.filter (fun x => decide (x.value ≤ e.value)) ++
      e :: q.filter fun x => decide (e.value < x.value) := by
  induction q with
  | nil => rfl
  | cons x xs ih =>
    obtain ⟨hx, hxs⟩ := List.pairwise_cons.1 h
    simp only [placeEntry]
    split
    · next hlt =>
      have above : ∀ y ∈ x :: xs, e.value < y.value := fun y hy => by
        rcases List.mem_cons.1 hy with rfl | hy
        · exact hlt
        · exact hlt.trans_le (hx y hy)
      rw [List.filter_eq_nil_iff.2 fun y hy => by simpa using above y hy,
        List.filter_eq_self.2 fun y hy => by simpa using above y hy, List.nil_append]
    · next hle =>
      rw [ih hxs, List.filter_cons_of_pos (by simpa using hle),
        List.filter_cons_of_neg (by simpa using hle), List.cons_append]

theorem placeEntry_ordered (e : TxEntry) {q : List TxEntry}
    (h : q.Pairwise fun a b => a.value ≤ b.value) :
    (placeEntry e q).Pairwise fun a b => a.value ≤ b.value := by
  rw [placeEntry_of_ordered e h, List.pairwise_append, List.pairwise_cons]
  refine ⟨h.filter _, ⟨fun y hy => ?_, h.filter _⟩, fun x hx y hy => ?_⟩
  · have := List.mem_filter.1 hy
    simp at this
    omega
  · have hxe := List.mem_filter.1 hx
    simp only [decide_eq_true_eq] at hxe
    rcases List.mem_cons.1 hy with rfl | hy
    · exact hxe.2
    · have := List.mem_filter.1 hy
      simp at this
      omega

/-- With every entry in transmission there is none to take out. -/
theorem takeLastWaiting_none {q : List TxEntry} :
    takeLastWaiting q = none ↔ ∀ x ∈ q, x.sending = true := by
  induction q with
  | nil => simp [takeLastWaiting]
  | cons x xs ih =>
    simp only [takeLastWaiting, List.forall_mem_cons]
    split
    · next h => simp [← ih, h]
    · next h => cases hx : x.sending <;> simp [← ih, h]

/-- The entry taken out is the last one that is not in transmission. -/
theorem takeLastWaiting_some {q rest : List TxEntry} {d : TxEntry}
    (h : takeLastWaiting q = some (d, rest)) :
    ∃ before behind, q = before ++ d :: behind ∧ rest = before ++ behind ∧ d.sending = false ∧
      ∀ x ∈ behind, x.sending = true := by
  induction q generalizing d rest with
  | nil => simp [takeLastWaiting] at h
  | cons x xs ih =>
    simp only [takeLastWaiting] at h
    split at h
    · next last later hl =>
      obtain ⟨before, behind, rfl, rfl, hd⟩ := ih hl
      obtain ⟨rfl, rfl⟩ := by simpa using h
      exact ⟨x :: before, behind, rfl, rfl, hd⟩
    · next hn =>
      cases hx : x.sending <;> simp [hx] at h
      obtain ⟨rfl, rfl⟩ := h
      exact ⟨[], xs, rfl, rfl, hx, takeLastWaiting_none.1 hn⟩

/-! ## What an outcome leaves (R15) -/

section
variable (s : State) (o : TxOwner) (b : Bool)

@[simp] theorem State.outcome_pending : (s.outcome o b).pending = s.pending := by
  unfold State.outcome; split <;> rfl
@[simp] theorem State.outcome_now : (s.outcome o b).now = s.now := by
  unfold State.outcome; split <;> rfl
@[simp] theorem State.outcome_serial : (s.outcome o b).serial = s.serial := by
  unfold State.outcome; split <;> rfl
@[simp] theorem State.outcome_participant : (s.outcome o b).participant = s.participant := by
  unfold State.outcome; split <;> rfl
@[simp] theorem State.outcome_clock : (s.outcome o b).clock = s.clock := by
  unfold State.outcome; split <;> rfl
@[simp] theorem State.outcome_store : (s.outcome o b).store = s.store := by
  unfold State.outcome; split <;> rfl
@[simp] theorem State.outcome_axes : (s.outcome o b).axes = s.axes := by
  unfold State.outcome; split <;> rfl
@[simp] theorem State.outcome_reg : (s.outcome o b).reg = s.reg := by
  unfold State.outcome; split <;> rfl
@[simp] theorem State.outcome_levels : (s.outcome o b).levels = s.levels := by
  unfold State.outcome; split <;> rfl
@[simp] theorem State.outcome_pwmStart : (s.outcome o b).pwmStart = s.pwmStart := by
  unfold State.outcome; split <;> rfl
@[simp] theorem State.outcome_cues : (s.outcome o b).cues = s.cues := by
  unfold State.outcome; split <;> rfl
@[simp] theorem State.outcome_sup : (s.outcome o b).sup = s.sup := by
  unfold State.outcome; split <;> rfl
@[simp] theorem State.outcome_free : (s.outcome o b).free = s.free := by
  unfold State.outcome; split <;> rfl

/-- Of the engine an outcome can touch the own HALT alone (R119). -/
theorem State.outcome_engine : (s.outcome o b).engine = { s.engine with halt :=
    { s.engine.halt with ownHalt := if o = .halt true then none else s.engine.halt.ownHalt } } := by
  unfold State.outcome
  split <;> simp_all

/-- Of the line an outcome can touch the two marks of what is due (R15, R27). -/
theorem State.outcome_line : (s.outcome o b).line = { s.line with
    flushDue := s.line.flushDue || decide (o = .stationResetReply true)
    reopenDue := s.line.reopenDue || decide (o = .rosterReopenReply) } := by
  unfold State.outcome
  split <;> simp_all

/-- The roster has the outcome of an ANNOUNCE and of no other telegram (R20). -/
theorem State.outcome_roster : (s.outcome o b).roster =
    if o = .announce then announceOutcome b s.now s.roster else s.roster := by
  unfold State.outcome
  split <;> simp_all

end

/-- A telegram whose leaving nothing waits for. -/
def TxOwner.silent (o : TxOwner) : Prop :=
  o ∉ [TxOwner.halt true, .announce, .stationResetReply true, .rosterReopenReply]

theorem State.outcome_of_silent {o : TxOwner} (h : o.silent) (b : Bool) (s : State) :
    s.outcome o b = s := by
  unfold TxOwner.silent at h
  unfold State.outcome
  split <;> simp_all

/-! ## What becomes of an offered telegram (R13) -/

/-- The transmit queue becomes `q`. -/
def State.withQueue (q : List TxEntry) (s : State) : State :=
  { s with line := { s.line with txQueue := q } }

theorem State.offer_of_excluded {e : TxEntry} {s : State} (h : s.engine.nodeState = .excluded) :
    s.offer e = s := by
  simp [State.offer, judgeOffer, h]

section
variable {e : TxEntry} {s : State} (hx : s.engine.nodeState ≠ .excluded)
include hx

/-- A REPORT replaces the first one that waits. -/
theorem State.offer_replaces {before behind : List TxEntry} {x : TxEntry} (he : e.owner = .report)
    (hq : s.line.txQueue = before ++ x :: behind) (hr : x.heldReport = true)
    (hb : ∀ y ∈ before, y.heldReport = false) :
    s.offer e = s.withQueue (before ++ { x with payload := e.payload } :: behind) := by
  simp [State.offer, judgeOffer, hx, he, hq, hr, updateFirst_append hb, State.withQueue, State.onLine]

section
variable (hr : e.owner ≠ .report ∨ s.line.txQueue.any TxEntry.heldReport = false)
include hr

/-- With no REPORT to replace, the queue's room and the telegram's class decide. -/
theorem judgeOffer_eq : judgeOffer (s.engine.nodeState == .excluded) e s.line.txQueue =
    if s.line.txQueue.length < 8 then .placed (placeEntry e s.line.txQueue)
    else if e.cls = 0 then
      match takeLastWaiting (placeEntry e s.line.txQueue) with
      | some (d, rest) => .displaced rest d
      | none => .full
    else .full := by
  have hn : ¬ (e.owner = .report ∧ s.line.txQueue.any TxEntry.heldReport = true) := by grind
  rw [judgeOffer, if_neg (by simpa using hx), if_neg hn]
  rfl

/-- With room the telegram is placed. -/
theorem State.offer_places (hl : s.line.txQueue.length < 8) :
    s.offer e = s.withQueue (placeEntry e s.line.txQueue) := by
  simp only [State.offer, judgeOffer_eq hx hr, if_pos hl]
  rfl

/-- A HALT at a full queue displaces the last entry that is not in transmission. -/
theorem State.offer_displaces (hl : 8 ≤ s.line.txQueue.length) (hc : e.cls = 0)
    (hs : e.sending = false) : ∃ before gone behind,
      placeEntry e s.line.txQueue = before ++ gone :: behind ∧ gone.sending = false ∧
      (∀ x ∈ behind, x.sending = true) ∧
      s.offer e = ((s.withQueue (before ++ behind)).count .txDrops).outcome gone.owner false := by
  cases ht : takeLastWaiting (placeEntry e s.line.txQueue) with
  | none =>
    have := takeLastWaiting_none.1 ht e ((placeEntry_perm e _).mem_iff.2 (by simp))
    simp [hs] at this
  | some r =>
    obtain ⟨gone, rest⟩ := r
    obtain ⟨before, behind, hq, rfl, hg, hb⟩ := takeLastWaiting_some ht
    refine ⟨before, gone, behind, hq, hg, hb, ?_⟩
    simp only [State.offer, judgeOffer_eq hx hr, if_neg (Nat.not_lt.2 hl), if_pos hc, ht]
    rfl

/-- Any other telegram is dropped at a full queue, and counted. -/
theorem State.offer_drops (hl : 8 ≤ s.line.txQueue.length) (hc : e.cls ≠ 0) :
    s.offer e = (s.count .txDrops).outcome e.owner false := by
  simp only [State.offer, judgeOffer_eq hx hr, if_neg (Nat.not_lt.2 hl), if_neg hc]

end

end

/-- The five things that an offer can do. -/
inductive Offered (e : TxEntry) (s : State) : State → Prop where
  | excluded : Offered e s s
  | replaced (before behind : List TxEntry) (x : TxEntry) : e.owner = .report →
      s.line.txQueue = before ++ x :: behind → x.owner = .report → x.sending = false →
      Offered e s (s.withQueue (before ++ { x with payload := e.payload } :: behind))
  | placed : s.line.txQueue.length < 8 → Offered e s (s.withQueue (placeEntry e s.line.txQueue))
  | displaced (before behind : List TxEntry) (gone : TxEntry) : e.cls = 0 →
      placeEntry e s.line.txQueue = before ++ gone :: behind → gone.sending = false →
      8 ≤ s.line.txQueue.length →
      Offered e s (((s.withQueue (before ++ behind)).count .txDrops).outcome gone.owner false)
  | dropped : e.cls ≠ 0 → 8 ≤ s.line.txQueue.length →
      Offered e s ((s.count .txDrops).outcome e.owner false)

/-- An offer does one of them. -/
theorem State.offered {e : TxEntry} (he : e.sending = false) (s : State) :
    Offered e s (s.offer e) := by
  by_cases hx : s.engine.nodeState = .excluded
  · rw [State.offer_of_excluded hx]
    exact .excluded
  by_cases hr : e.owner = .report ∧ s.line.txQueue.any TxEntry.heldReport = true
  · obtain ⟨before, x, behind, hq, hp, hb⟩ := exists_first hr.2
    rw [State.offer_replaces hx hr.1 hq hp hb]
    simp only [TxEntry.heldReport, Bool.and_eq_true, beq_iff_eq, Bool.not_eq_true'] at hp
    exact .replaced before behind x hr.1 hq hp.1 hp.2
  have hr : e.owner ≠ .report ∨ s.line.txQueue.any TxEntry.heldReport = false := by grind
  by_cases hl : s.line.txQueue.length < 8
  · rw [State.offer_places hx hr hl]
    exact .placed hl
  have hl := Nat.not_lt.1 hl
  by_cases hc : e.cls = 0
  · obtain ⟨before, gone, behind, hq, hg, -, ho⟩ := State.offer_displaces hx hr hl hc he
    rw [ho]
    exact .displaced before behind gone hc hq hg hl
  · rw [State.offer_drops hx hr hl hc]
    exact .dropped hc hl

/-! ## Emptyings and the ends of an attempt (R12, R15) -/

/-- `s` can become `t` by outcomes alone: the queues and what no outcome reaches stand. -/
theorem State.outcomes_induct {P : State → Prop} {b : Bool} (step : ∀ s o, P s → P (s.outcome o b))
    (es : List TxEntry) {s : State} (h : P s) : P (s.outcomes b es) := by
  unfold State.outcomes
  induction es generalizing s with
  | nil => exact h
  | cons e es ih => exact ih (step s e.owner h)

end Sys2Proof.Machine
end

section
/-! PROOFS. Raising a cause, judging the arm conditions and closing the roster (R92, R187, R22) are made of a
few updates. A relation that holds along each of these holds along the whole operation: the induction is
made here once, for every such relation. -/

namespace Sys2Proof.Machine

/-- `R` holds along every update that raising, judging and closing are made of. -/
structure RaiseClosed (R : State → State → Prop) : Prop where
  refl (s : State) : R s s
  trans {s t u : State} : R s t → R t u → R s u
  onClock (f : FrameClock → FrameClock) (s : State) : R s (s.onClock f)
  onEngine (f : Engine → Engine) (s : State) : R s (s.onEngine f)
  onAxes (f : AxisChannel → AxisChannel) (s : State) : R s (s.onAxes f)
  onCues (f : CueLine → CueLine) (s : State) : R s (s.onCues f)
  latch (c : Cause) (a : Option (Fin 4)) (n : Option Nat) (s : State) : R s (s.latch c a n)
  note (n : Note) (s : State) : R s (s.note n)
  offer {e : TxEntry} (he : e.sending = false) (s : State) : R s (s.offer e)
  emptyTx (keep : TxEntry → Bool) (s : State) : R s (s.emptyTx keep)
  endWatch (s : State) : R s s.endWatch
  registerEnd (e : PassEnding) (c : Option HaltCause) (s : State) : R s (s.registerEnd e c)
  discard (s : State) : R s (s.onStore MoveStore.discard)
  resumeStopped (s : State) : R s (s.onRoster fun r => { r with resume := .stopped })
  phaseClosed (s : State) : R s (s.onRoster fun r => { r with phase := .closed, schedule := .done })

namespace RaiseClosed
variable {R : State → State → Prop}

theorem of_ite {p : Prop} [Decidable p] {s t u : State} (ht : p → R s t) (hu : ¬ p → R s u) :
    R s (if p then t else u) := by
  split
  · exact ht ‹_›
  · exact hu ‹_›

variable (h : RaiseClosed R)
include h

theorem foldl {α : Type} {f : State → α → State} (hf : ∀ s a, R s (f s a)) (l : List α) (s : State) :
    R s (l.foldl f s) := by
  induction l generalizing s with
  | nil => exact h.refl s
  | cons a l ih => exact h.trans (hf s a) (ih _)

/-! ## Telegrams of the engine -/

theorem offerReport (s : State) : R s s.offerReport := by
  refine RaiseClosed.of_ite (fun _ => h.refl s) fun _ => ?_
  have timer : R s (if s.engine.nodeState.inPass then s
      else s.onEngine fun e => { e with reportStart := s.now }) :=
    RaiseClosed.of_ite (fun _ => h.refl s) fun _ => h.onEngine ..
  exact h.trans timer (h.offer rfl _)

theorem offerHalt (r b) (s : State) : R s (s.offerHalt r b) :=
  h.trans (h.onEngine ..) (h.offer rfl _)

/-! ## Changes of node state and the arm judgement -/

theorem enterFree (s : State) : R s s.enterFree := h.trans (h.onClock ..) (h.onCues ..)

theorem clockExit (s : State) : R s s.clockExit := by
  unfold State.clockExit
  split
  · exact RaiseClosed.of_ite (fun _ => h.refl s) fun _ => h.enterFree s
  · exact RaiseClosed.of_ite (fun _ => h.refl s) fun _ => h.enterFree s
  all_goals exact h.refl s

theorem enterNode (ns : NodeState) (s : State) : R s (s.enterNode ns) := by
  have rest : ∀ t : State, R t (if ns = .armed then t.onCues CueLine.toRest else t) := fun t =>
    RaiseClosed.of_ite (fun _ => h.onCues ..) fun _ => h.refl t
  have entered := h.trans (h.trans (h.onEngine (fun e => { e with nodeState := ns }) s) (rest _))
    (h.clockExit _)
  exact RaiseClosed.of_ite (fun _ => h.trans entered (h.offerReport _)) fun _ => entered

theorem judgeArm (s : State) : R s s.judgeArm := by
  unfold State.judgeArm
  split
  · exact RaiseClosed.of_ite (fun _ => h.enterNode ..) fun _ => h.refl s
  · exact RaiseClosed.of_ite (fun _ => h.refl s) fun _ => h.enterNode ..
  · exact RaiseClosed.of_ite (fun _ => h.refl s) fun _ => h.trans (h.offer rfl s) (h.enterNode ..)
  all_goals exact h.refl s

theorem backToArmed (s : State) : R s s.backToArmed :=
  RaiseClosed.of_ite (fun _ => h.enterNode ..) fun _ => h.trans (h.enterNode ..) (h.judgeArm _)

theorem disarm (s : State) : R s s.disarm :=
  h.trans (h.trans (h.onEngine ..) (h.note ..)) (h.enterNode ..)

theorem holdAtCommanded (s : State) : R s s.holdAtCommanded := h.onEngine ..

/-! ## Halt events and STOP_NOW -/

theorem ownHaltEvent (c : Byte) (s : State) : R s (s.ownHaltEvent c) := by
  unfold State.ownHaltEvent
  split
  · exact h.refl s
  · exact h.trans (h.onEngine ..) (h.offerHalt ..)

theorem haltRig (c : Cause) (s : State) : R s (s.haltRig c) := by
  unfold State.haltRig
  split
  · exact h.ownHaltEvent ..
  · exact h.trans (h.offer rfl s) (h.disarm _)
  · exact h.disarm s
  · exact h.onEngine ..
  · exact h.onEngine ..
  all_goals exact h.refl s

theorem abandonLoad (s : State) : R s s.abandonLoad := by
  unfold State.abandonLoad
  split
  · exact h.discard s
  · split
    · exact h.trans (h.discard s) (h.offer rfl _)
    · exact h.discard s
  all_goals exact h.refl s

theorem stopAxes (s : State) : R s s.stopAxes := by
  unfold State.stopAxes
  exact h.trans (h.trans (h.onAxes ..) (h.holdAtCommanded _)) (h.onEngine ..)

theorem enterStopped (s : State) : R s s.enterStopped := h.trans (h.onEngine ..) (h.enterNode ..)

theorem stopNow (c : Cause) (s : State) : R s (s.stopNow c) := by
  have stopped := h.stopAxes s
  have generic : ∀ b, R s (s.stopAxes.offerGenericHalt b) := fun b => h.trans stopped (h.offer rfl _)
  have inPass : R s (((match s.engine.halt.rampStart with
      | some _ => s.stopAxes
      | none => s.stopAxes.offerHalt s.engine.ownRampStart c.byte).registerEnd .stopped
        (some ⟨c.byte, s.ownNumber⟩)).endWatch).enterStopped := by
    refine h.trans (h.trans (h.trans ?_ (h.registerEnd ..)) (h.endWatch _)) (h.enterStopped _)
    split
    · exact stopped
    · exact h.trans stopped (h.offerHalt ..)
  unfold State.stopNow
  split
  · exact inPass
  · exact inPass
  · exact h.trans (h.trans (h.trans stopped (h.offer rfl _)) (h.note ..)) (h.enterStopped _)
  · exact h.trans (h.trans (generic _) (h.note ..)) (h.enterStopped _)
  iterate 5 exact h.trans (generic _) (h.enterStopped _)
  · exact h.trans (h.trans (generic _) (h.enterStopped _)) (h.abandonLoad _)
  · exact stopped
  all_goals exact h.trans stopped (h.resumeStopped _)

/-- R187. -/
theorem raise (c : Cause) (a n) (s : State) : R s (s.raise c a n) := by
  unfold State.raise
  dsimp only
  split
  · exact h.latch ..
  · exact h.trans (h.latch ..) (h.haltRig ..)
  · exact h.trans (h.latch ..) (h.stopNow ..)

theorem raiseLineFault (s : State) : R s s.raiseLineFault :=
  RaiseClosed.of_ite (fun _ => h.raise ..) fun _ => h.refl s

/-! ## Closing the roster -/

theorem enterResume (s : State) : R s s.enterResume := by
  unfold State.enterResume
  split
  · exact h.enterNode ..
  · exact h.trans (h.onEngine ..) (h.enterNode ..)
  · exact h.enterNode ..

theorem closeRoster (s : State) : R s s.closeRoster := by
  unfold State.closeRoster
  refine h.trans (h.phaseClosed s) ?_
  dsimp only
  split
  · exact h.trans (h.enterResume _) (h.offer rfl _)
  · exact h.trans (h.enterNode ..) (h.emptyTx ..)

theorem closeIfQuiet (s : State) : R s s.closeIfQuiet :=
  RaiseClosed.of_ite (fun _ => h.closeRoster s) fun _ => h.refl s

end RaiseClosed

/-! ## What these operations do to the line interface -/

/-- What no operation of the engine, the axes, the clock or the roster does to the line interface: the
transmit queue stays ordered with the entries in transmission it had, and all else stands but the two
queues and the two marks of what is due. -/
structure LineKept (s t : State) : Prop where
  fixed : t.line = { s.line with
    txQueue := t.line.txQueue, requestQueue := t.line.requestQueue
    flushDue := t.line.flushDue, reopenDue := t.line.reopenDue }
  ordered : s.queueOrdered → t.queueOrdered
  sending : t.line.txQueue.countP TxEntry.sending = s.line.txQueue.countP TxEntry.sending

namespace LineKept

theorem of_eq {s t : State} (h : t.line = s.line) : LineKept s t :=
  ⟨by rw [h], by simp [State.queueOrdered, h], by rw [h]⟩

theorem refl (s : State) : LineKept s s := of_eq rfl

theorem trans {s t u : State} (h : LineKept s t) (k : LineKept t u) : LineKept s u :=
  ⟨by rw [k.fixed, h.fixed], k.ordered ∘ h.ordered, k.sending.trans h.sending⟩

/-- `trans` with the later operation first: it says what the earlier one is. -/
theorem comp {s t u : State} (k : LineKept t u) (h : LineKept s t) : LineKept s u := h.trans k

theorem reach (t : Nat) (s : State) : LineKept s (s.reach t) := of_eq rfl
theorem onRoster (f) (s : State) : LineKept s (s.onRoster f) := of_eq rfl
theorem onClock (f) (s : State) : LineKept s (s.onClock f) := of_eq rfl
theorem onStore (f) (s : State) : LineKept s (s.onStore f) := of_eq rfl
theorem onEngine (f) (s : State) : LineKept s (s.onEngine f) := of_eq rfl
theorem onReg (f) (s : State) : LineKept s (s.onReg f) := of_eq rfl
theorem onSup (f) (s : State) : LineKept s (s.onSup f) := of_eq rfl
theorem onAxis (i f) (s : State) : LineKept s (s.onAxis i f) := of_eq rfl
theorem onLevel (i f) (s : State) : LineKept s (s.onLevel i f) := of_eq rfl
theorem onAxes (f) (s : State) : LineKept s (s.onAxes f) := of_eq rfl
theorem onCues (f) (s : State) : LineKept s (s.onCues f) := of_eq rfl
theorem withCues (c) (s : State) : LineKept s { s with cues := c } := of_eq rfl

/-- The transmit queue becomes one with the same values and transmissions, entry by entry. -/
theorem of_map {s : State} {q : List TxEntry} (hv : q.map TxEntry.value = s.line.txQueue.map TxEntry.value)
    (hs : q.map TxEntry.sending = s.line.txQueue.map TxEntry.sending) : LineKept s (s.withQueue q) := by
  refine ⟨rfl, fun ho => ?_, ?_⟩
  · have := List.pairwise_map.2 ho
    rw [← hv] at this
    exact List.pairwise_map.1 this
  · have count : ∀ l : List TxEntry, l.countP TxEntry.sending = (l.map TxEntry.sending).countP id :=
      fun l => by rw [List.countP_map]; rfl
    rw [count, count, ← hs]
    rfl

/-- Entries that are not in transmission leave the queue. -/
theorem of_sublist {s : State} {q : List TxEntry} (hq : q.Sublist s.line.txQueue)
    (hs : q.countP TxEntry.sending = s.line.txQueue.countP TxEntry.sending) :
    LineKept s (s.withQueue q) :=
  ⟨rfl, fun ho => List.Pairwise.sublist hq ho, hs⟩

theorem placeEntry {e : TxEntry} (he : e.sending = false) (s : State) :
    LineKept s (s.withQueue (placeEntry e s.line.txQueue)) :=
  ⟨rfl, fun ho => placeEntry_ordered e ho, by
    simp [State.withQueue, (placeEntry_perm e _).countP_eq, he]⟩

theorem outcome (o : TxOwner) (b : Bool) (s : State) : LineKept s (s.outcome o b) :=
  ⟨by rw [State.outcome_line], by simp [State.queueOrdered, State.outcome_line],
    by rw [State.outcome_line]⟩

theorem count (c : Counter) (s : State) : LineKept s (s.count c) := of_eq rfl

theorem of_offered {e : TxEntry} {s t : State} (he : e.sending = false) (h : Offered e s t) :
    LineKept s t := by
  cases h with
  | excluded => exact refl s
  | replaced before behind x _ hq _ _ => exact of_map (by simp [hq, TxEntry.value]) (by simp [hq])
  | placed => exact placeEntry he s
  | displaced before behind gone _ hq hg _ =>
    refine (placeEntry he s).trans (.trans ?_ ((count ..).trans (outcome ..)))
    exact of_sublist (s := s.withQueue (Machine.placeEntry e s.line.txQueue))
      (by simp [State.withQueue, hq]) (by simp [State.withQueue, hq, hg])
  | dropped => exact (count ..).trans (outcome ..)

theorem offer {e : TxEntry} (he : e.sending = false) (s : State) : LineKept s (s.offer e) :=
  of_offered he (s.offered he)

theorem outcomes (b : Bool) (es : List TxEntry) (s : State) : LineKept s (s.outcomes b es) :=
  State.outcomes_induct (fun _ _ h => h.trans (outcome ..)) es (refl s)

theorem emptyTx (keep : TxEntry → Bool) (s : State) : LineKept s (s.emptyTx keep) := by
  have kept : LineKept s (s.withQueue (s.line.txQueue.filter fun e => e.sending || keep e)) := by
    refine of_sublist List.filter_sublist ?_
    rw [List.countP_filter]
    exact List.countP_congr fun e _ => by simp +contextual
  refine kept.trans (.trans ?_ (outcomes ..))
  refine of_map (s := s.withQueue _) ?_ ?_
  · simp only [List.map_map, State.withQueue]
    exact List.map_congr_left fun e _ => by simp only [Function.comp]; split <;> rfl
  · simp only [List.map_map, State.withQueue]
    exact List.map_congr_left fun e _ => by simp only [Function.comp]; split <;> rfl

theorem closed : RaiseClosed LineKept where
  refl := refl
  trans := trans
  onClock := onClock
  onEngine := onEngine
  onAxes := onAxes
  onCues := onCues
  latch _ _ _ := onSup _
  note _ := onSup _
  offer := offer
  emptyTx := emptyTx
  endWatch := onRoster _
  registerEnd _ _ _ := of_eq rfl
  discard := onStore _
  resumeStopped := onRoster _
  phaseClosed := onRoster _

end LineKept

end Sys2Proof.Machine
end

section
/-! PROOFS. What the evaluations, the channels, the pass ticks, the clock, the slews and the roster do to the
line interface: each is raising, judging and updates that do not touch it (`LineKept`). -/

namespace Sys2Proof.Machine.LineKept

theorem ite {p : Prop} [Decidable p] {s t u : State} (ht : p → LineKept s t) (hu : ¬ p → LineKept s u) :
    LineKept s (if p then t else u) := RaiseClosed.of_ite ht hu

theorem foldl {α : Type} {f : State → α → State} (hf : ∀ s a, LineKept s (f s a)) (l : List α)
    (s : State) : LineKept s (l.foldl f s) := closed.foldl hf l s

theorem note (n) (s : State) : LineKept s (s.note n) := onSup ..

theorem setReturn (q n d) (s : State) : LineKept s (s.setReturn q n d) := onEngine ..

theorem raise (c a n) (s : State) : LineKept s (s.raise c a n) := closed.raise ..

theorem enterNode (ns) (s : State) : LineKept s (s.enterNode ns) := closed.enterNode ..

theorem judgeArm (s : State) : LineKept s s.judgeArm := closed.judgeArm ..

theorem offerReport (s : State) : LineKept s s.offerReport := closed.offerReport ..

/-! ## Evaluations -/

theorem recordException (c a k o n) (s : State) : LineKept s (s.recordException c a k o n) := by
  refine ite (fun _ => ?_) fun _ => refl s
  split
  · exact onSup ..
  · exact of_eq rfl

theorem arithException (c a k o n) (s : State) : LineKept s (s.arithException c a k o n) :=
  ((raise ..).trans (recordException ..)).trans (onSup ..)

theorem raiseAxisEval (a ev o n) (s : State) : LineKept s (s.raiseAxisEval a ev o n) := by
  have exception : ∀ (p : Bool) (c : ExceptionCode) (t : State),
      LineKept t (if p = true then t.arithException c a ev.keyIndex o n else t) :=
    fun p c t => ite (fun _ => arithException ..) fun _ => refl t
  exact ((exception ..).trans (exception ..)).trans (ite (fun _ => raise ..) fun _ => refl _)

theorem raiseEval (evs o n) (s : State) : LineKept s (s.raiseEval evs o n) := by
  unfold State.raiseEval
  exact foldl (fun s a => by split; exacts [raiseAxisEval .., refl s]) _ s

theorem evaluateLevels (t) (s : State) : LineKept s (s.evaluateLevels t) := by
  unfold State.evaluateLevels
  exact foldl (fun s c => by split; exacts [of_eq rfl, refl s]) _ s

/-! ## Axis channels -/

theorem followingCheck (a) (s : State) : LineKept s (s.followingCheck a) := by
  unfold State.followingCheck
  refine ite (fun _ => refl s) fun _ => ite (fun _ => ?_) fun _ => refl s
  split
  · exact ite (fun _ => raise ..) fun _ => refl s
  · exact refl s

theorem suppress (a) (s : State) : LineKept s (s.suppress a) := by
  have drop : ∀ (p : Bool) (f : AxisChannel → AxisChannel) (t : State),
      LineKept t (if p = true then t.onAxis a f else t) :=
    fun p f t => ite (fun _ => onAxis ..) fun _ => refl t
  exact ((drop ..).trans (drop ..)).trans (drop ..)

theorem handTarget (a v d) (s : State) : LineKept s (s.handTarget a v d) := by
  unfold State.handTarget
  dsimp only
  refine (followingCheck a s).trans (ite (fun _ => refl _) fun _ => (suppress ..).comp ((onAxis ..).comp ?_))
  split
  · exact (raise ..).comp (onAxis ..)
  all_goals exact refl _

theorem handHeld (a v d) (s : State) : LineKept s (s.handHeld a v d) := by
  unfold State.handHeld
  exact (handTarget ..).comp (onEngine ..)

theorem rehand (a) (s : State) : LineKept s (s.rehand a) :=
  ite (fun _ => handTarget ..) fun _ => followingCheck ..

theorem takeMidpoint (n a m) (s : State) : LineKept s (s.takeMidpoint n a m) := by
  refine ite (fun _ => refl s) fun _ => ite (fun _ => onSup ..) fun _ => ?_
  exact (onReg _ s).trans (ite (fun _ => raise ..) fun _ => refl _)

theorem takeMidpoints (ms) (s : State) : LineKept s (s.takeMidpoints ms) := by
  unfold State.takeMidpoints
  split
  · refine ite (fun _ => refl s) fun _ => ?_
    dsimp only
    refine LineKept.trans ?_ (ite (fun _ => onReg ..) fun _ => refl _)
    refine comp (foldl (fun s a => by split; exacts [takeMidpoint .., refl s]) _ _) ?_
    exact ite (fun _ => onReg ..) fun _ => refl s
  · exact refl s

theorem exposureOpen (o) (s : State) : LineKept s (s.exposureOpen o) := by
  unfold State.exposureOpen
  exact (takeMidpoints ..).comp ((onAxes ..).comp (onClock ..))

theorem exposureClose (s : State) : LineKept s s.exposureClose := by
  unfold State.exposureClose
  exact (takeMidpoints ..).comp ((onAxes ..).comp (onClock ..))

/-! ## Pass ticks -/

theorem checkMissing (s : State) : LineKept s s.checkMissing := by
  unfold State.checkMissing
  split
  · exact (foldl (fun _ _ => raise ..) _ _).comp (onRoster ..)
  · exact refl s

theorem reportIfDue (s : State) : LineKept s s.reportIfDue := by
  unfold State.reportIfDue
  split
  · exact ite (fun _ => offerReport s) fun _ => refl s
  · exact refl s

theorem endPassEnded (p) (s : State) : LineKept s (s.endPassEnded p) := by
  unfold State.endPassEnded
  exact (enterNode ..).comp ((onEngine ..).comp (of_eq rfl))

theorem endPassHalted (p) (s : State) : LineKept s (s.endPassHalted p) := by
  unfold State.endPassHalted
  exact (enterNode ..).comp (of_eq rfl)

theorem tickWork (p i d) (s : State) : LineKept s (s.tickWork p i d) := by
  unfold State.tickWork
  dsimp only
  refine (withCues ..).comp ?_
  refine LineKept.trans ?_ (ite (fun _ => evaluateLevels ..) fun _ => refl _)
  exact (foldl (fun s a => by split; exacts [handHeld .., refl s]) _ _).comp (raiseEval ..)

theorem runningTick (p i d) (s : State) : LineKept s (s.runningTick p i d) := by
  unfold State.runningTick
  refine LineKept.trans ?_ (ite (fun _ => endPassEnded ..) fun _ => reportIfDue _)
  exact (tickWork ..).comp (onEngine ..)

theorem rampTick (p r i d) (s : State) : LineKept s (s.rampTick p r i d) := by
  unfold State.rampTick
  refine LineKept.trans ?_ (ite (fun _ => endPassHalted ..) fun _ => reportIfDue _)
  refine (tickWork ..).comp ((onEngine ..).comp ?_)
  exact ite (fun _ => refl s) fun _ => enterNode ..

theorem passWork (i d) (s : State) : LineKept s (s.passWork i d) := by
  unfold State.passWork
  split
  · dsimp only
    refine LineKept.trans ?_ (ite (fun _ => checkMissing _) fun _ => refl _)
    refine (onEngine (Engine.takeTick d) s).trans ?_
    split
    · exact ite (fun _ => rampTick ..) fun _ => runningTick ..
    · exact runningTick ..
  · exact refl s

theorem takePassTick (i d) (s : State) : LineKept s (s.takePassTick i d) :=
  (onCues CueLine.countDown s).trans
    (ite (fun _ => passWork ..) fun _ => refl _)

theorem issueTick (i) (s : State) : LineKept s (s.issueTick i) := by
  unfold State.issueTick
  exact (takePassTick ..).comp (onClock ..)

theorem catchUp (n) (s : State) : LineKept s (s.catchUp n) := by
  induction n generalizing s with
  | zero => exact refl s
  | succ n ih =>
    unfold State.catchUp
    split
    · exact (issueTick ..).trans (ih _)
    · exact refl s

/-! ## The frame clock -/

/-- A HALT that is no longer the record's own stands at its place. -/
theorem forgetHalt (s : State) :
    LineKept s (s.onLine fun l => { l with txQueue := l.txQueue.map TxEntry.forgetHalt }) := by
  have same : ∀ e : TxEntry, e.forgetHalt.value = e.value ∧ e.forgetHalt.sending = e.sending :=
    fun e => by unfold TxEntry.forgetHalt; split <;> exact ⟨rfl, rfl⟩
  exact of_map (by simp [Function.comp_def, same]) (by simp [Function.comp_def, same])

theorem beginPass (p) (s : State) : LineKept s (s.beginPass p) := by
  unfold State.beginPass
  exact (enterNode ..).comp ((onReg ..).comp ((onRoster ..).comp ((forgetHalt _).comp (onEngine ..))))

theorem engineMark (s : State) : LineKept s s.engineMark := by
  refine ite (fun _ => onReg ..) fun _ => ?_
  split
  · exact ite (fun _ => beginPass ..) fun _ => refl s
  · exact refl s

/-- A counted mark does what its own change of the clock does. -/
theorem countMark (o r) {f : State → State} (h : ∀ s, LineKept s (f s)) (s : State) :
    LineKept s (s.countMark o r f) := by
  unfold State.countMark
  refine LineKept.trans ?_ (ite (fun _ => issueTick ..) fun _ => refl _)
  exact (engineMark _).comp ((h _).comp ((exposureOpen ..).comp (onClock ..)))

theorem enterAcquiring (f) (s : State) : LineKept s (s.enterAcquiring f) := by
  unfold State.enterAcquiring
  exact (judgeArm _).comp ((onCues ..).comp (onClock ..))

theorem markFree (m r) (s : State) : LineKept s (s.markFree m r) :=
  countMark _ _ (enterAcquiring _) s

theorem adoptAcquired (m) (s : State) : LineKept s (s.adoptAcquired m) := by
  unfold State.adoptAcquired
  exact ite (fun _ => (judgeArm _).comp ((onSup ..).comp (onClock ..))) fun _ => onClock ..

theorem trackingFailure (m d r) (s : State) : LineKept s (s.trackingFailure m d r) := by
  unfold State.trackingFailure
  refine ((note .unlock _).comp (onClock (.judgeRange d) s)).trans (ite (fun _ => ?_) fun _ => ?_)
  · exact (raise ..).comp (onClock ..)
  · exact countMark _ _ (enterAcquiring _) _

theorem markLocked (m r) (s : State) : LineKept s (s.markLocked m r) := by
  unfold State.markLocked
  refine ite (fun _ => count ..) fun _ => ite (fun _ => ?_) fun _ => trackingFailure ..
  exact (countMark _ _ (fun _ => onClock ..) _).comp (catchUp ..)

theorem markHoldover (m r) (s : State) : LineKept s (s.markHoldover m r) := by
  unfold State.markHoldover
  refine ite (fun _ => ?_) fun _ => ?_
  · exact (judgeArm _).comp ((onAxes ..).comp ((onClock ..).comp ((onClock ..).comp (onClock ..))))
  · exact (countMark _ _ (fun _ => (judgeArm _).comp (onClock ..)) _).comp (catchUp ..)

theorem realMark (r) (s : State) : LineKept s (s.realMark r) := by
  unfold State.realMark
  refine (onClock (fun c => { c with lastMark := s.now }) s).trans ?_
  dsimp only
  split
  · exact markFree ..
  · exact countMark _ _ (adoptAcquired _) _
  · exact markLocked ..
  · exact markHoldover ..
  · exact refl _
  · exact ite (fun _ => count ..) fun _ => (markFree ..).comp (closed.enterFree _)

theorem adoptSynthesized (d) (s : State) : LineKept s (s.adoptSynthesized d) := by
  unfold State.adoptSynthesized
  refine ((count .missedMarks _).comp (onClock (fun c => { c with
    timingBase := some d, origin := .synthesized, missedRun := c.missedRun + 1 }) s)).trans
    (ite (fun _ => ?_) fun _ => ?_)
  · exact (judgeArm _).comp (onClock ..)
  · refine (raise .markLost none none _).trans (ite (fun _ => onClock ..) fun _ => ?_)
    exact (judgeArm _).comp (closed.enterFree _)

theorem ownMark (c o d) (s : State) : LineKept s (s.ownMark c o d) :=
  (catchUp ..).trans (ite (fun _ => countMark _ _ (fun _ => onClock ..) _) fun _ => refl _)

/-! ## Slews -/

theorem followingChecks (s : State) : LineKept s s.followingChecks := by
  unfold State.followingChecks
  exact foldl (fun _ _ => followingCheck ..) _ s

theorem restAxes (s : State) : LineKept s s.restAxes := by
  unfold State.restAxes
  exact (enterNode ..).comp ((onEngine ..).comp (onEngine ..))

theorem completeAxes (k t c) (s : State) : LineKept s (s.completeAxes k t c) := by
  have parked : ∀ u : State, LineKept u ((u.onPathAt t c).evaluateLevels t).enterArmedOrIdle :=
    fun u => comp (enterNode ..) ((evaluateLevels ..).comp (onEngine ..))
  unfold State.completeAxes
  refine (onEngine (fun e => { e with slew := none }) s).trans ?_
  dsimp only
  split
  · exact parked _
  · exact parked _
  · exact enterNode ..

theorem handAxes (p) (s : State) : LineKept s (s.handAxes p) := by
  unfold State.handAxes
  exact foldl (fun _ _ => ite (fun _ => handTarget ..) fun _ => rehand ..) _ s

theorem axisSlewTick (k t c m) (s : State) : LineKept s (s.axisSlewTick k t c m) := by
  unfold State.axisSlewTick
  dsimp only
  refine ite (fun _ => ite (fun _ => ?_) fun _ => ?_) fun _ => ?_
  · exact (followingChecks _).comp ((completeAxes ..).comp (onEngine ..))
  · exact LineKept.trans ((handAxes ..).comp (onEngine ..)) (ite (fun _ => restAxes _) fun _ => refl _)
  · exact (handAxes ..).comp ((onEngine ..).comp (onEngine ..))

theorem brakeSlewTick (k t c m) (s : State) : LineKept s (s.brakeSlewTick k t c m) := by
  unfold State.brakeSlewTick
  dsimp only
  exact LineKept.trans ((handAxes ..).comp ((onEngine ..).comp (onEngine ..)))
    (ite (fun _ => restAxes _) fun _ => refl _)

theorem completeReturn (s : State) : LineKept s s.completeReturn := by
  unfold State.completeReturn State.enterArmedOrIdle
  exact (enterNode ..).comp ((onEngine ..).comp (onEngine ..))

theorem restReturn (s : State) : LineKept s s.restReturn := by
  unfold State.restReturn
  exact (enterNode ..).comp ((onEngine ..).comp ((evaluateLevels ..).comp
    ((onEngine ..).comp (onEngine ..))))

theorem finishReturn {s t : State} (h : s.finishReturn = some t) : LineKept s t := by
  unfold State.finishReturn at h
  split at h
  · cases h; exact completeReturn s
  · split at h <;> cases h
    exact restReturn s

theorem returnWork (t n) (s : State) : LineKept s (s.returnWork t n) := by
  unfold State.returnWork
  exact (foldl (fun s a => by split; exacts [handHeld .., refl s]) _ _).comp (raiseEval ..)

theorem returnTick (q n) (s : State) : LineKept s (s.returnTick q n) := by
  unfold State.returnTick
  dsimp only
  refine ite (fun _ => ?_) fun _ => ?_
  · refine (setReturn q (n + 1) false s).trans ?_
    split
    · next h => exact (followingChecks _).comp (finishReturn h)
    · exact foldl (fun _ _ => ite (fun _ => rehand ..) fun _ => refl _) _ _
  · have worked := ((returnWork q.advance.value.toNat (n + 1) _).comp
      (setReturn q.advance (n + 1) false s)).trans
      (ite (p := (n + 1) % 16 = 0 ∨ q.advance.distance = 0)
        (fun _ => evaluateLevels q.advance.value.toNat _) fun _ => refl _)
    refine ite (fun _ => worked.trans ?_) fun _ => worked
    cases h : State.finishReturn _ with
    | none => exact refl _
    | some t => exact finishReturn h

theorem brakeReturnTick (q n) (s : State) : LineKept s (s.brakeReturnTick q n) := by
  unfold State.brakeReturnTick
  dsimp only
  refine LineKept.trans ?_ (ite (fun _ => restReturn _) fun _ => refl _)
  refine LineKept.trans ?_ (ite (fun _ => evaluateLevels ..) fun _ => refl _)
  exact (returnWork ..).comp (setReturn ..)

theorem slewWork (s : State) : LineKept s s.slewWork := by
  unfold State.slewWork
  split
  · exact refl s
  · exact refl s
  · exact followingChecks s
  · split
    · exact axisSlewTick ..
    · exact brakeSlewTick ..
    · exact refl s
    · exact refl s
  · split
    · exact returnTick ..
    · exact brakeReturnTick ..
    · exact refl s
    · exact refl s
  all_goals exact handAxes ..

/-! ## The roster -/

/-- The request queue and the marks of what is due become anything. -/
theorem withRequests (requests : List RequestRecord) (flush reopen : Bool) (s : State) :
    LineKept s (s.onLine fun l =>
      { l with requestQueue := requests, flushDue := flush, reopenDue := reopen }) :=
  ⟨rfl, id, rfl⟩

theorem reopen (s : State) : LineKept s s.reopen := by
  unfold State.reopen
  refine (closed.abandonLoad _).comp ((enterNode ..).comp ?_)
  refine (onEngine ..).comp ((onRoster ..).comp ?_)
  exact (withRequests [] _ false _).comp ((emptyTx ..).comp (onRoster ..))

theorem checkAlignment (i r) (s : State) : LineKept s (s.checkAlignment i r) := by
  unfold State.checkAlignment
  refine ite (fun _ => onRoster ..) fun _ => ?_
  exact ((onRoster ..).comp (count .misaligned s)).trans (ite (fun _ => raise ..) fun _ => refl _)

theorem watch (i f) (s : State) : LineKept s (s.watch i f) := by
  have halted : ∀ b (t : State), LineKept t (t.peerHalted i b) := fun b t =>
    ite (fun _ => raise ..) fun _ => refl t
  have unwatched : LineKept s (s.onEntry i fun e => { e with watched := false }) :=
    onRoster ..
  unfold State.watch
  dsimp only
  split
  · exact refl s
  · exact checkAlignment ..
  · exact (checkAlignment ..).trans (halted ..)
  · exact unwatched.trans (halted ..)
  · exact unwatched
  · exact unwatched.trans (raise ..)

theorem takeReport (i f) (s : State) : LineKept s (s.takeReport i f) := by
  unfold State.takeReport
  split
  · exact refl s
  · refine ite (fun _ => refl s) fun _ => ?_
    exact (onRoster _ s).trans (ite (fun _ => watch ..) fun _ => refl _)

/-! ## Requests -/

theorem joinRequests (r) (s : State) : LineKept s (s.joinRequests r) := by
  unfold State.joinRequests
  exact ite (fun _ => withRequests _ _ _ s) fun _ => count ..

theorem resetFlush (s : State) : LineKept s s.resetFlush := by
  unfold State.resetFlush
  exact (offerReport _).comp ((withRequests [] false _ _).comp (emptyTx ..))

end Sys2Proof.Machine.LineKept
end

section
/-! PROOFS. The attempt on the line (R4 to R6, R12): how it begins, and what its two ends leave. -/

namespace Sys2Proof.Machine

/-! ## The entry in transmission -/

/-- One entry in transmission is an attempt. -/
theorem State.exists_attempt {s : State} (h : s.line.txQueue.countP TxEntry.sending = 1) :
    ∃ before e behind, s.attempt before e behind := by
  obtain ⟨before, e, behind, hq, he, hb⟩ := exists_first (p := TxEntry.sending)
    (q := s.line.txQueue) (by
      obtain ⟨e, hm, he⟩ := List.countP_pos_iff.1 (by omega : 0 < s.line.txQueue.countP TxEntry.sending)
      exact List.any_eq_true.2 ⟨e, hm, he⟩)
  refine ⟨before, e, behind, hq, he, fun x hx => ?_⟩
  rcases List.mem_append.1 hx with hx | hx
  · exact hb x hx
  · have : behind.countP TxEntry.sending = 0 := by
      simp only [hq, List.countP_append, List.countP_cons, he, if_true] at h
      omega
    simpa using List.countP_eq_zero.1 this x hx

section
variable {s : State} {before behind : List TxEntry} {e : TxEntry} (h : s.attempt before e behind)
include h

theorem State.attempt_sendingEntry : sendingEntry s.line.txQueue = some e := by
  obtain ⟨hq, he, hn⟩ := h
  rw [sendingEntry, hq]
  exact List.find?_eq_some_iff_append.2
    ⟨he, before, behind, rfl, fun x hx => by simp [hn x (by simp [hx])]⟩

/-- The attempt ends and its entry leaves the queue. -/
theorem State.endAttempt_of_attempt (b : Bool) :
    s.endAttempt b = (s.withQueue (before ++ behind)).outcome e.owner b := by
  have left : s.line.txQueue.filter (fun x => !x.sending) = before ++ behind := by
    obtain ⟨hq, he, hn⟩ := h
    rw [hq, List.filter_append, List.filter_cons_of_neg (by simp [he]), ← List.filter_append]
    exact List.filter_eq_self.2 fun x hx => by simp [hn x hx]
  unfold State.endAttempt
  rw [State.attempt_sendingEntry h]
  simp only [State.onLine, left]
  rfl

/-- R14, R15: a marked entry leaves where its attempt is lost. -/
theorem State.loseAttempt_of_marked (hm : e.cancelled = true ∨ e.flushing = true) :
    s.loseAttempt = (s.withQueue (before ++ behind)).outcome e.owner false := by
  unfold State.loseAttempt
  rw [State.attempt_sendingEntry h]
  simp only [Bool.or_eq_true, hm, if_true]
  exact State.endAttempt_of_attempt h false

/-- R5: any other entry waits again at its place. -/
theorem State.loseAttempt_of_unmarked (hc : e.cancelled = false) (hf : e.flushing = false) :
    s.loseAttempt = s.withQueue (before ++ { e with sending := false } :: behind) := by
  unfold State.loseAttempt
  rw [State.attempt_sendingEntry h]
  obtain ⟨hq, he, hn⟩ := h
  have marked : (e.cancelled || e.flushing) = false := by simp [hc, hf]
  simp only [marked, Bool.false_eq_true, if_false, State.onLine]
  rw [hq, updateFirst_append (fun x hx => hn x (by simp [hx])) he]
  rfl

end

/-- With no entry in transmission there is no attempt to lose. -/
theorem State.loseAttempt_of_none {s : State} (h : ∀ e ∈ s.line.txQueue, e.sending = false) :
    s.loseAttempt = s := by
  have : sendingEntry s.line.txQueue = none := by
    rw [sendingEntry, List.find?_eq_none]
    simpa using h
  unfold State.loseAttempt
  rw [this]

/-! ## The queue after an attempt -/

theorem State.endAttempt_ordered (b : Bool) (s : State) (h : s.queueOrdered) :
    (s.endAttempt b).queueOrdered := by
  unfold State.endAttempt
  split
  · exact h
  · simp only [State.queueOrdered, State.outcome_line]
    exact h.filter _

theorem State.loseAttempt_ordered (s : State) (h : s.queueOrdered) : s.loseAttempt.queueOrdered := by
  unfold State.loseAttempt
  split
  · exact h
  · split
    · exact s.endAttempt_ordered false h
    · have := List.pairwise_map.2 h
      rw [← updateFirst_map (p := TxEntry.sending) (g := TxEntry.value)
        (f := fun x => { x with sending := false }) (fun _ _ => rfl)] at this
      exact List.pairwise_map.1 this

/-- Of one attempt at most, none is left. -/
theorem State.endAttempt_sending (b : Bool) (s : State) :
    (s.endAttempt b).line.txQueue.countP TxEntry.sending = 0 := by
  unfold State.endAttempt
  split
  · next h => simpa [sendingEntry, List.countP_eq_zero] using h
  · simp [State.outcome_line, List.countP_eq_zero]

theorem State.loseAttempt_sending {s : State} (h : s.line.txQueue.countP TxEntry.sending ≤ 1) :
    s.loseAttempt.line.txQueue.countP TxEntry.sending = 0 := by
  by_cases hz : s.line.txQueue.countP TxEntry.sending = 0
  · rw [State.loseAttempt_of_none (by simpa [List.countP_eq_zero] using hz)]
    exact hz
  · obtain ⟨before, e, behind, ha⟩ := s.exists_attempt (by omega)
    have hn : ∀ x ∈ before ++ behind, x.sending = false := ha.2.2
    by_cases hm : e.cancelled = true ∨ e.flushing = true
    · rw [State.loseAttempt_of_marked ha hm, State.outcome_line]
      simpa [State.withQueue, List.countP_eq_zero, or_imp, forall_and] using hn
    · rw [State.loseAttempt_of_unmarked ha (by grind) (by grind)]
      simpa [State.withQueue, List.countP_eq_zero, or_imp, forall_and] using hn

/-- A new attempt is the only one. -/
theorem countP_markSending {q : List TxEntry} (h : q.countP TxEntry.sending = 0)
    (hh : (queueHead q).isSome = true) : (markSending q).countP TxEntry.sending = 1 := by
  obtain ⟨before, e, behind, rfl, he, hb⟩ := exists_first (p := fun e => !e.cancelled) (q := q)
    (by simpa [queueHead, List.find?_isSome] using hh)
  rw [markSending, updateFirst_append hb he]
  simp only [List.countP_append, List.countP_cons] at h ⊢
  have := h
  simp
  omega

/-! ## What the ends of an attempt leave alone -/

section
variable (s : State) (b : Bool)

/-- An attempt's end reaches the transmit queue, and by an outcome the engine, the roster and the marks of
what is due. -/
theorem State.endAttempt_line : (s.endAttempt b).line = { s.line with
    txQueue := (s.endAttempt b).line.txQueue
    flushDue := (s.endAttempt b).line.flushDue
    reopenDue := (s.endAttempt b).line.reopenDue } := by
  unfold State.endAttempt
  split
  · rfl
  · rw [State.outcome_line]; rfl

theorem State.loseAttempt_line : s.loseAttempt.line = { s.line with
    txQueue := s.loseAttempt.line.txQueue
    flushDue := s.loseAttempt.line.flushDue
    reopenDue := s.loseAttempt.line.reopenDue } := by
  unfold State.loseAttempt
  split
  · rfl
  · split
    · exact s.endAttempt_line false
    · rfl

end

end Sys2Proof.Machine
end

section
/-! PROOFS. What every command but a reset does (O7, O13): it keeps the bounds of Safety.lean, the order of
the transmit queue, one attempt at most, and a quiet count below 11 in WAIT_QUIET. One lemma per handler and
per event; a shared operation brings its `Kept` and its `LineKept`. -/

namespace Sys2Proof.Machine

/-- R4: in WAIT_QUIET the quiet count has not reached the 11 that end it. -/
abbrev State.quietBelow (s : State) : Prop := s.line.state = .waitQuiet → s.line.quietCount < 11

/-- From `s` to `t` the bounds and what R4 and R12 say of the line are kept. -/
structure Advances (s t : State) : Prop where
  kept : Kept s t
  ordered : s.queueOrdered → t.queueOrdered
  attempt : s.oneAttempt → t.oneAttempt
  quiet : s.quietBelow → t.quietBelow

namespace Advances

theorem of {s t : State} (k : Kept s t) (l : LineKept s t) : Advances s t where
  kept := k
  ordered := l.ordered
  attempt h := by
    have state : t.line.state = s.line.state := by rw [l.fixed]
    rw [State.oneAttempt, l.sending, state]
    exact h
  quiet h := by
    rw [State.quietBelow, l.fixed]
    exact h

theorem refl (s : State) : Advances s s := .of (.refl s) (.refl s)

theorem trans {s t u : State} (h : Advances s t) (k : Advances t u) : Advances s u :=
  ⟨h.kept.trans k.kept, k.ordered ∘ h.ordered, k.attempt ∘ h.attempt, k.quiet ∘ h.quiet⟩

/-- `trans` with the later operation first. -/
theorem comp {s t u : State} (k : Advances t u) (h : Advances s t) : Advances s u := h.trans k

theorem ite {p : Prop} [Decidable p] {s t u : State} (ht : p → Advances s t) (hu : ¬ p → Advances s u) :
    Advances s (if p then t else u) := RaiseClosed.of_ite ht hu

theorem foldl {α : Type} {f : State → α → State} (hf : ∀ s a, Advances s (f s a)) (l : List α)
    (s : State) : Advances s (l.foldl f s) := by
  induction l generalizing s with
  | nil => exact refl s
  | cons a l ih => exact (hf s a).trans (ih _)

/-- The interface comes to a state in which no attempt is on the line. -/
theorem of_ended {s t : State} (k : Kept s t) (ho : s.queueOrdered → t.queueOrdered)
    (hc : s.oneAttempt → t.line.txQueue.countP TxEntry.sending = 0)
    (ht : t.line.state ≠ .transmitting) (hq : t.quietBelow) : Advances s t :=
  ⟨k, ho, fun h => by rw [State.oneAttempt, hc h, if_neg ht], fun _ => hq⟩

/-- The interface changes its state, and neither state has an attempt on the line. -/
theorem of_state {s t : State} (k : Kept s t) (hl : t.line.txQueue = s.line.txQueue)
    (hs : s.line.state ≠ .transmitting) (ht : t.line.state ≠ .transmitting) (hq : t.quietBelow) :
    Advances s t :=
  of_ended k (by simp [State.queueOrdered, hl]) (fun h => by
    rw [State.oneAttempt, if_neg hs] at h
    rw [hl, h]) ht hq

/-! ## Updates and shared operations -/

theorem reach (t : Nat) (s : State) : Advances s (s.reach t) := .of (.reach ..) (.reach ..)
theorem onClock (f) (s : State) : Advances s (s.onClock f) := .of (.onClock ..) (.onClock ..)
theorem onEngine (f) (s : State) : Advances s (s.onEngine f) := .of (.onEngine ..) (.onEngine ..)
theorem onAxis (i f) (s : State) : Advances s (s.onAxis i f) := .of (.onAxis ..) (.onAxis ..)
theorem onLevel (i f) (s : State) : Advances s (s.onLevel i f) := .of (.onLevel ..) (.onLevel ..)
theorem onAxes (f) (s : State) : Advances s (s.onAxes f) := .of (.onAxes ..) (.onAxes ..)
theorem onCues (f) (s : State) : Advances s (s.onCues f) := .of (.onCues ..) (.onCues ..)

theorem onSup {f : Supervision → Supervision} {s : State}
    (h : (f s.sup).counters = s.sup.counters) : Advances s (s.onSup f) := .of (.onSup h) (.onSup ..)

theorem onStore {f : MoveStore → MoveStore} {s : State}
    (h : s.store.pool.wf = true → (f s.store).pool.wf = true) : Advances s (s.onStore f) :=
  .of (.onStore h) (.onStore ..)

theorem onRoster {f : Roster → Roster} {s : State}
    (h : s.roster.table.length ≤ 24 → (f s.roster).table.length ≤ 24) : Advances s (s.onRoster f) :=
  .of (.onRoster h) (.onRoster ..)

theorem count (c) (s : State) : Advances s (s.count c) := .of (.count ..) (.count ..)
theorem note (n) (s : State) : Advances s (s.note n) := .of (.note ..) (.note ..)

theorem offer {e : TxEntry} (he : e.sending = false) (s : State) : Advances s (s.offer e) :=
  .of (.offer ..) (.offer he s)

theorem offerReply (r c m x) (s : State) : Advances s (s.offerReply r c m x) := offer rfl s
theorem answer (r c) (s : State) : Advances s (s.answer r c) := offer rfl s
theorem refuse (r m) (s : State) : Advances s (s.refuse r m) := offer rfl s

theorem enterNode (ns) (s : State) : Advances s (s.enterNode ns) := .of (.enterNode ..) (.enterNode ..)
theorem judgeArm (s : State) : Advances s s.judgeArm := .of (.judgeArm s) (.judgeArm s)
theorem raise (c a n) (s : State) : Advances s (s.raise c a n) := .of (.raise ..) (.raise ..)
theorem latch (c a n) (s : State) : Advances s (s.latch c a n) := .of (.latch ..) (.onSup ..)
theorem suppress (a) (s : State) : Advances s (s.suppress a) := .of (.suppress ..) (.suppress ..)
theorem offerReport (s : State) : Advances s s.offerReport := .of (.offerReport s) (.offerReport s)
theorem countMark (o r) {f : State → State} (k : ∀ s, Kept s (f s)) (l : ∀ s, LineKept s (f s))
    (s : State) : Advances s (s.countMark o r f) := .of (.countMark _ _ k _) (.countMark _ _ l _)

/-! ## The interface's own events -/

theorem inLine {ls : LineState} (t : Nat) {f : State → State} {s : State}
    (h : s.line.state = ls → Advances (s.reach t) (f (s.reach t))) : Advances s (s.inLine ls t f) :=
  ite (fun hl => (reach t s).trans (h hl)) fun _ => refl s

/-- A telegram has been read without error (R4). -/
theorem arrive (t : Nat) {f : State → State} (h : ∀ s, Advances s (f s)) (s : State) :
    Advances s (s.arrive t f) := by
  refine inLine t fun hl => (h _).comp ?_
  refine of_state ((Kept.readLine ..).trans (.setLine ..)) ?_ ?_ ?_ ?_
  · simp [State.setLine, LineInterface.readRun_eq]
  all_goals simp [State.setLine, State.quietBelow, hl]

theorem ifLength (p n) {f : State → State} {s : State} (h : Advances s (f s)) :
    Advances s (s.ifLength p n f) :=
  ite (fun _ => h) fun _ => count ..

theorem ifTaken (p) {f : Byte → List Byte → State → State} (h : ∀ t b s, Advances s (f t b s))
    (s : State) : Advances s (s.ifTaken p f) := by
  unfold State.ifTaken
  split
  · exact count ..
  · exact ite (fun _ => h ..) fun _ => refl s

/-- Bits are read outside WAIT_QUIET. -/
theorem readLine (b n) {s : State} (h : s.line.state ≠ .waitQuiet) : Advances s (s.readLine b n) := by
  refine ⟨.readLine .., ?_, ?_, ?_⟩
  all_goals simp [State.queueOrdered, State.oneAttempt, State.quietBelow, LineInterface.readRun_eq, h]

theorem drive (b) (s : State) : Advances s (s.drive b) := ⟨.drive .., id, id, id⟩

theorem transmitStart {s : State} (hs : s.line.state = .idle) (hm : s.maySend = true) :
    Advances s (s.onLine fun l => { l with txQueue := markSending l.txQueue, state := .transmitting }) := by
  have head : (queueHead s.line.txQueue).isSome = true := by
    simp only [State.maySend, Bool.and_eq_true] at hm
    exact hm.1.1.1
  refine ⟨.onLine fun h k => ⟨by simpa [markSending] using h, k⟩, fun ho => ?_, fun ha => ?_,
    by simp [State.quietBelow]⟩
  · have := List.pairwise_map.2 ho
    rw [← updateFirst_map (p := fun e => !e.cancelled) (g := TxEntry.value)
      (f := fun e => { e with sending := true }) (fun _ _ => rfl)] at this
    exact List.pairwise_map.1 this
  · rw [State.oneAttempt, hs] at ha
    rw [State.oneAttempt, State.onLine_line, if_pos rfl]
    exact countP_markSending ha head

/-- An attempt ends, the interface having left TRANSMITTING. -/
theorem endAttempt (b) {s t : State} (k : Kept s t) (hq : t.line.txQueue = s.line.txQueue)
    (ht : t.line.state ≠ .transmitting) (hw : t.line.state ≠ .waitQuiet) :
    Advances s (t.endAttempt b) := by
  refine of_ended (k.trans (.endAttempt ..))
    (fun h => t.endAttempt_ordered b (by rwa [State.queueOrdered, hq]))
    (fun _ => t.endAttempt_sending b) ?_ ?_
  · rw [State.endAttempt_line]; exact ht
  · rw [State.quietBelow, State.endAttempt_line]; exact fun h => absurd h hw

theorem arbitrationLost (s : State) :
    Advances s (((s.readLine true 1).drive false).setLine .receiving).loseAttempt := by
  refine of_ended ?_ (fun h => State.loseAttempt_ordered _ ?_) (fun h => State.loseAttempt_sending ?_) ?_ ?_
  · exact (((Kept.readLine ..).trans (.drive ..)).trans (.setLine ..)).trans (.loseAttempt _)
  · simpa [State.queueOrdered, State.setLine, LineInterface.readRun_eq] using h
  · have : s.line.txQueue.countP TxEntry.sending ≤ 1 := by
      rw [h]
      split <;> omega
    simpa [State.setLine, LineInterface.readRun_eq] using this
  · rw [State.loseAttempt_line]; simp [State.setLine]
  · rw [State.quietBelow, State.loseAttempt_line]; simp [State.setLine]

theorem countClash (s : State) : Advances s s.countClash := by
  unfold State.countClash
  have counted : ∀ (n : Nat) (b : Bool), Advances s ((s.count .clashes).onLine fun l =>
      { l with clashRun := n, txOff := l.txOff || b }) := fun n b =>
    (count .clashes s).trans ⟨.onLine fun h k => ⟨h, k⟩, id, id, id⟩
  refine ite (fun _ => ?_) fun _ => counted ..
  refine (of (.closeIfQuiet _) (LineKept.closed.closeIfQuiet _)).comp ((judgeArm _).comp ?_)
  refine (of (.raiseLineFault _) (LineKept.closed.raiseLineFault _)).comp ?_
  exact (onRoster id).comp (counted ..)

/-- R9: the attempt and any reception end in WAIT_QUIET. -/
theorem lineStuck (n : Nat) (s : State) :
    Advances s ((((s.readLine true n).drive false).loseAttempt.onLine fun l =>
      { l with lineStuck := true }).enterWaitQuiet) := by
  refine of_ended ?_ (fun h => ?_) (fun h => ?_) (by simp [State.enterWaitQuiet])
    (by simp [State.enterWaitQuiet, State.quietBelow])
  · refine Kept.trans (.trans ?_ (.onLine fun h k => ⟨h, k⟩)) (.enterWaitQuiet _)
    exact ((Kept.readLine ..).trans (.drive ..)).trans (.loseAttempt _)
  · refine State.loseAttempt_ordered ((s.readLine true n).drive false) ?_
    simpa [State.queueOrdered, LineInterface.readRun_eq] using h
  · refine State.loseAttempt_sending (s := (s.readLine true n).drive false) ?_
    have : s.line.txQueue.countP TxEntry.sending ≤ 1 := by
      rw [h]
      split <;> omega
    simpa [LineInterface.readRun_eq] using this

/-! ## Requests and LOAD telegrams -/

theorem dispatch (p) {f : RequestRecord → State → State} (h : ∀ r s, Advances s (f r s)) (s : State) :
    Advances s (s.dispatch p f) := by
  unfold State.dispatch
  split
  · next q =>
    refine ite (fun _ => (h ..).comp (of (.onLine fun k l => ⟨k, ?_⟩) (LineKept.withRequests _ _ _ s)))
      fun _ => refl s
    rw [q] at l
    simp at l ⊢
    omega
  · exact refl s

theorem handle (k p) {f : RequestRecord → State → State} (h : ∀ r s, Advances s (f r s)) (s : State) :
    Advances s (s.handle k p f) := dispatch _ h s

theorem takeLoad {f : MoveStore → MoveStore} (h : ∀ st, st.pool.wf = true → (f st).pool.wf = true)
    (s : State) : Advances s (s.takeLoad f) :=
  ite (fun _ => onStore (h _)) fun _ => (note ..).comp (count ..)

theorem arriveLoad (t p) {f : MoveStore → MoveStore} (h : ∀ st, st.pool.wf = true → (f st).pool.wf = true)
    (s : State) : Advances s (s.arriveLoad t p f) :=
  arrive t (ifTaken p fun _ _ => takeLoad h) s

end Advances

/-! ## The key pool under LOAD telegrams (4.3, R62, R63) -/

namespace MoveStore

theorem latchOrder_pool (l i) (st : MoveStore) : (st.latchOrder l i).pool = st.pool := by
  unfold latchOrder; split <;> rfl

theorem malformed_pool (st : MoveStore) : st.malformed.pool = st.pool := latchOrder_pool ..

theorem writeSlots_wf (a : Nat) (xs : List Slot) (pool : Cells Slot) (h : pool.wf = true) :
    (writeSlots a xs pool).wf = true := by
  induction xs generalizing a pool with
  | nil => exact h
  | cons x xs ih => exact ih _ _ (Cells.wf_write _ _ _ h)

theorem takeKeys_wf (k n xs) (st : MoveStore) (h : st.pool.wf = true) :
    (st.takeKeys k n xs).pool.wf = true := by
  unfold takeKeys
  dsimp only
  split
  · rwa [latchOrder_pool]
  · split
    · exact writeSlots_wf _ _ _ h
    · exact h

theorem takeAxisSetup_wf (p) (st : MoveStore) (h : st.pool.wf = true) :
    (st.takeAxisSetup p).pool.wf = true := by
  unfold takeAxisSetup
  split
  · exact h
  · rwa [malformed_pool]

theorem takeLevelSetup_wf (p) (st : MoveStore) (h : st.pool.wf = true) :
    (st.takeLevelSetup p).pool.wf = true := by
  unfold takeLevelSetup
  split
  · exact h
  · rwa [malformed_pool]

theorem takeCueSetup_wf (p) (st : MoveStore) (h : st.pool.wf = true) :
    (st.takeCueSetup p).pool.wf = true := by
  unfold takeCueSetup
  split
  · exact h
  · rwa [malformed_pool]

theorem takeAxisKeys_wf (p) (st : MoveStore) (h : st.pool.wf = true) :
    (st.takeAxisKeys p).pool.wf = true := by
  unfold takeAxisKeys
  split
  · exact takeKeys_wf _ _ _ st h
  · rwa [malformed_pool]

theorem takeLevelKeys_wf (p) (st : MoveStore) (h : st.pool.wf = true) :
    (st.takeLevelKeys p).pool.wf = true := by
  unfold takeLevelKeys
  split
  · split
    · exact takeKeys_wf _ _ _ st h
    · rwa [malformed_pool]
  · rwa [malformed_pool]

theorem takeCues_wf (p) (st : MoveStore) (h : st.pool.wf = true) :
    (st.takeCues p).pool.wf = true := by
  unfold takeCues
  split
  · split
    · rwa [latchOrder_pool]
    · exact h
  · rwa [malformed_pool]

end MoveStore

end Sys2Proof.Machine
end

section
/-! PROOFS. The handlers of the requests, and then every command: what a step keeps (O7, O13). -/

namespace Sys2Proof.Machine.Advances

/-! ## Handlers that move the rig (R96 to R99) -/

theorem slewTo (k t c) (s : State) : Advances s (s.slewTo k t c) := by
  unfold State.slewTo State.beginSlew
  refine (of (.raiseEval ..) (.raiseEval ..)).comp ((enterNode ..).comp ?_)
  exact (onEngine ..).comp (onEngine ..)

theorem handleCue (r) (s : State) : Advances s (s.handleCue r) := by
  unfold State.handleCue
  exact ite (fun _ => answer ..) fun _ => ite (fun _ => refuse ..) fun _ => ite (fun _ => answer ..)
    fun _ => (answer ..).comp (slewTo ..)

theorem handleSeek (r) (s : State) : Advances s (s.handleSeek r) := by
  unfold State.handleSeek
  exact ite (fun _ => answer ..) fun _ => ite (fun _ => refuse ..) fun _ => ite (fun _ => answer ..)
    fun _ => (answer ..).comp (slewTo ..)

theorem jogTo (a d) (s : State) : Advances s (s.jogTo a d) := by
  unfold State.jogTo State.beginSlew
  exact (enterNode ..).comp ((onEngine ..).comp (onEngine ..))

theorem handleJog (r) (s : State) : Advances s (s.handleJog r) := by
  unfold State.handleJog
  exact ite (fun _ => answer ..) fun _ => ite (fun _ => answer ..) fun _ => ite (fun _ => refuse ..)
    fun _ => (answer ..).comp (jogTo ..)

theorem handleReturn (r) (s : State) : Advances s (s.handleReturn r) := by
  unfold State.handleReturn
  exact ite (fun _ => answer ..) fun _ => ite (fun _ => refuse ..) fun _ =>
    (answer ..).comp ((enterNode ..).comp (onEngine ..))

/-! ## Handlers of a load (R58, R65) and the end of validation (R67, R68) -/

theorem beginLoad (h) (s : State) : Advances s (s.beginLoad h) := by
  unfold State.beginLoad State.darkenDisabled State.haltDisabled
  refine (enterNode ..).comp ((foldl (fun _ _ => ite (fun _ => onAxis ..) fun _ => refl _) _ _).comp ?_)
  refine (of (.computeDuties _) (.of_eq rfl)).comp ?_
  refine (foldl (fun _ _ => ite (fun _ => onLevel ..) fun _ => refl _) _ _).comp ?_
  refine (of (.onReg (fun h k => ⟨h, k⟩) fun _ _ => ⟨Nat.zero_le _, Nat.zero_le _⟩) (.onReg ..)).comp ?_
  exact (onEngine ..).comp ((onEngine ..).comp (onStore id))

theorem handleBeginLoad (r) (s : State) : Advances s (s.handleBeginLoad r) := by
  unfold State.handleBeginLoad
  refine ite (fun _ => answer ..) fun _ => ite (fun _ => answer ..) fun _ => ?_
  split
  · exact offer rfl s
  · exact ite (fun _ => refuse ..) fun _ => (answer ..).comp (beginLoad ..)

theorem handleCommitLoad (r) (s : State) : Advances s (s.handleCommitLoad r) := by
  unfold State.handleCommitLoad
  split
  · exact onStore id
  · exact answer ..
  · exact refuse ..
  · exact refuse ..

theorem acceptMove (c) (s : State) : Advances s (s.acceptMove c) := by
  unfold State.acceptMove
  refine (judgeArm _).comp ((offer rfl _).comp ((enterNode ..).comp ?_))
  refine (of (.computeDuties _) (.of_eq rfl)).comp ((of (.takeRestLevels ..) (.withCues ..)).comp ?_)
  exact (onEngine ..).comp (onStore id)

theorem rejectMove (c f) (s : State) : Advances s (s.rejectMove c f) := by
  unfold State.rejectMove
  exact (offer rfl _).comp ((enterNode ..).comp (onStore id))

/-! ## Handlers that set the part up (R116, R149, R164, R174, R186) -/

theorem handleSetAxis (r) (s : State) : Advances s (s.handleSetAxis r) := by
  unfold State.handleSetAxis
  exact ite (fun _ => answer ..) fun _ => ite (fun _ => answer ..) fun _ =>
    (offerReply ..).comp (onAxis ..)

theorem handleSetStation (r) (s : State) : Advances s (s.handleSetStation r) := by
  unfold State.handleSetStation
  exact ite (fun _ => answer ..) fun _ => ite (fun _ => answer ..) fun _ =>
    (offerReply ..).comp ((judgeArm _).comp (onSup rfl))

theorem handleSetDisposition (r) (s : State) : Advances s (s.handleSetDisposition r) := by
  unfold State.handleSetDisposition
  refine ite (fun _ => answer ..) fun _ => ?_
  split
  · exact answer ..
  · refine ite (fun _ => refuse ..) fun _ => ?_
    split
    · exact answer ..
    · exact (answer ..).comp (onSup rfl)

theorem swapped (s : State) : Advances s (s.onReg Registration.swap) := by
  refine of (.onReg (fun h k => ?_) fun h k => ?_) (.onReg ..)
  all_goals
    unfold Registration.swap Registration.setReference Registration.reference
    split <;> simp_all [updateNewest_length]

theorem noReference (s : State) :
    Advances s (s.onReg fun g => g.setReference { g.reference with holds := none }) := by
  refine of (.onReg (fun h k => ?_) fun h k => ?_) (.onReg ..)
  all_goals
    unfold Registration.setReference Registration.reference
    split <;> simp_all

theorem handleSetReference (r) (s : State) : Advances s (s.handleSetReference r) := by
  unfold State.handleSetReference
  refine ite (fun _ => answer ..) fun _ => ?_
  split
  · split
    · exact answer ..
    · exact (answer ..).comp (swapped s)
    · exact refuse ..
  · exact (answer ..).comp (noReference s)
  · exact answer ..

theorem handleSetLevel (r) (s : State) : Advances s (s.handleSetLevel r) := by
  unfold State.handleSetLevel
  exact ite (fun _ => answer ..) fun _ => ite (fun _ => answer ..) fun _ => ite (fun _ => refuse ..)
    fun _ => (offerReply ..).comp (of (.takeLevel ..) (.of_eq rfl))

/-! ## Handlers that read the part (R165, R166, R189) -/

/-- Counters that become 0 keep their width. -/
theorem zeroCounters {f : Supervision → Supervision} {s : State}
    (h : (f s.sup).counters = Vector.ofFn fun _ => 0) : Advances s (s.onSup f) :=
  of ⟨rfl, rfl, rfl, Nat.le_refl _, id, id, id,
    fun _ => by simp [State.countersFit, h, Vector.all_eq_true], id⟩ (.onSup ..)

theorem clearPart (p) (s : State) : Advances s (s.clearPart p) := by
  unfold State.clearPart
  split
  · exact onSup rfl
  · exact zeroCounters rfl
  · exact onAxes ..
  · exact onSup rfl
  · exact refl s

theorem useFree (p) (s : State) : Advances s (s.useFree p) := by
  unfold State.useFree
  exact ite (fun _ => of (.spendFree ..) (.of_eq rfl)) fun _ => refl s

theorem handleStatus (r) (s : State) : Advances s (s.handleStatus r) := by
  unfold State.handleStatus
  dsimp only
  split
  · exact answer ..
  · refine ite (fun _ => answer ..) fun _ => (offerReply ..).comp ?_
    exact (useFree _ s).trans (ite (fun _ => clearPart ..) fun _ => refl _)

theorem handleReadPass (r) (s : State) : Advances s (s.handleReadPass r) := by
  unfold State.handleReadPass
  dsimp only
  split
  · exact answer ..
  · refine ite (fun _ => answer ..) fun _ => ?_
    split
    · exact offerReply ..
    · exact refuse ..

theorem handleReadDeviations (r) (s : State) : Advances s (s.handleReadDeviations r) :=
  ite (fun _ => answer ..) fun _ => offerReply ..

/-! ## Handlers that recover the part (R26, R130, R191) -/

theorem handleClearFault (r) (s : State) : Advances s (s.handleClearFault r) := by
  unfold State.handleClearFault
  have cleared : Advances s ((s.onSup Supervision.clearLatches).onLine fun l =>
      { l with txOff := false, clashRun := 0 }) :=
    (onSup rfl).trans ⟨.onLine fun h k => ⟨h, k⟩, id, id, id⟩
  refine cleared.trans (ite (fun _ => ite (fun _ => refuse ..) fun _ => ?_) fun _ => ?_)
  · exact (answer ..).comp ((judgeArm _).comp (enterNode ..))
  · exact (answer ..).comp (judgeArm _)

theorem resetStation (s : State) : Advances s s.resetStation := by
  unfold State.resetStation
  exact (judgeArm _).comp ((onCues ..).comp ((onEngine ..).comp ((onAxes ..).comp (zeroCounters rfl))))

theorem handleStationReset (r) (s : State) : Advances s (s.handleStationReset r) := by
  unfold State.handleStationReset
  refine ite (fun _ => answer ..) fun _ => ?_
  dsimp only
  refine ite (fun _ => ?_) fun _ => ?_
  · exact (resetStation _).comp (offer rfl s)
  · exact (of (.resetFlush _) (.resetFlush _)).comp ((resetStation _).comp (offer rfl s))

theorem handleRosterReopen (r) (s : State) : Advances s (s.handleRosterReopen r) := by
  unfold State.handleRosterReopen
  refine ite (fun _ => answer ..) fun _ => ite (fun _ => refuse ..) fun _ => ?_
  dsimp only
  have taken : ∀ b, Advances s (s.setResume.offer (s.reopenReply r b)) :=
    fun b => (offer rfl _).comp (onRoster id)
  exact ite (fun _ => taken _) fun _ => (of (.reopen _) (.reopen _)).comp (taken _)

/-! ## The pass and the scan -/

theorem backToArmed (s : State) : Advances s s.backToArmed :=
  ite (fun _ => enterNode ..) fun _ => (judgeArm _).comp (enterNode ..)

theorem acceptStart (f) (s : State) : Advances s (s.acceptStart f) := by
  unfold State.acceptStart
  exact (enterNode ..).comp (onEngine ..)

theorem takeStart (f) (s : State) : Advances s (s.takeStart f) := by
  unfold State.takeStart
  refine ite (fun _ => refl s) fun _ => ite (fun _ => count ..) fun _ => ?_
  split
  · exact offer rfl s
  · exact acceptStart ..

theorem takeDecline (n f) (s : State) : Advances s (s.takeDecline n f) := by
  unfold State.takeDecline
  refine ite (fun _ => ?_) fun _ => refl s
  split
  · exact backToArmed s
  · exact raise ..
  all_goals exact refl s

theorem cancelHalt (s : State) : Advances s s.cancelHalt := by
  unfold State.cancelHalt
  dsimp only
  split
  · exact refl s
  · next e h =>
    refine ite (fun _ => ?_) fun hs => ?_
    · refine of (.onLine fun h k => ⟨by simpa using h, k⟩) ?_
      refine LineKept.of_map ?_ ?_
      · exact updateFirst_map (f := fun x => { x with cancelled := true }) (fun _ _ => rfl) _
      · exact updateFirst_map (f := fun x => { x with cancelled := true }) (fun _ _ => rfl) _
    · obtain ⟨hp, before, behind, hq, hb⟩ := List.find?_eq_some_iff_append.1 h
      refine of (Kept.trans (.onLine fun h k => ⟨(List.length_eraseP_le).trans h, k⟩) (.outcome ..)) ?_
      refine LineKept.trans (LineKept.of_sublist List.eraseP_sublist ?_) (.outcome ..)
      rw [hq, List.eraseP_append_right _ fun x hx => by simpa using hb x hx]
      simp_all

theorem haltRunning (n c) (s : State) : Advances s (s.haltRunning n c) := by
  unfold State.haltRunning
  dsimp only
  refine trans ?_ (ite (fun _ => cancelHalt _) fun _ => refl _)
  exact trans (onEngine _ s) (ite (fun _ => note ..) fun _ => refl _)

theorem takeHaltTelegram (n p) (s : State) : Advances s (s.takeHaltTelegram n p) := by
  have latched := latch .remoteHalt none (some n) s
  unfold State.takeHaltTelegram State.takeGenericHalt State.takeHalt
  refine ite (fun _ => ?_) fun _ => ite (fun _ => ?_) fun _ => refl s
  · dsimp only
    split
    · exact latched.trans (of (.ownHaltEvent ..) (LineKept.closed.ownHaltEvent ..))
    · exact latched
    · exact latched.trans (backToArmed _)
    · exact latched.trans (of (.disarm _) (LineKept.closed.disarm _))
    · exact latched.trans (onEngine ..)
    · exact latched.trans (onEngine ..)
    all_goals exact refl s
  · dsimp only
    split
    · exact latched.trans (backToArmed _)
    · exact latched.trans (haltRunning ..)
    · exact latched.trans (ite (fun _ => (note ..).comp (onEngine ..)) fun _ => refl _)
    all_goals exact refl s

theorem checkReferences (r) (s : State) : Advances s (s.checkReferences r) :=
  ite (fun _ => onSup rfl) fun _ => ite (fun _ => refl s) fun _ => (raise ..).comp (onSup rfl)

theorem judgeScan (r) (s : State) : Advances s (s.judgeScan r) := by
  unfold State.judgeScan
  dsimp only
  have raised : ∀ (b : Bool) (c : Cause) (t : State),
      Advances t (if b = true then t.raise c none none else t) :=
    fun b c t => ite (fun _ => raise ..) fun _ => refl t
  refine (raised ..).comp ((onSup rfl).comp ((raised ..).comp (onSup rfl)))

theorem handLamps (r) (s : State) : Advances s (s.handLamps r) := by
  unfold State.handLamps
  refine (of (.computeDuties _) (.of_eq rfl)).comp ?_
  exact foldl (fun _ _ => ite (fun _ => refl _) fun _ => onLevel ..) _ s

theorem takeScan (r) (s : State) : Advances s (s.takeScan r) := by
  unfold State.takeScan
  refine (judgeArm _).comp ((handLamps ..).comp ?_)
  exact trans ((onSup rfl).comp (checkReferences r s)) (ite (fun _ => refl _) fun _ => judgeScan ..)

/-! ## Events of the part's own timing -/

theorem atInstant (d) {f : Nat → State → State} (h : ∀ n s, Advances s (f n s)) (s : State) :
    Advances s (s.atInstant d f) := by
  unfold State.atInstant
  split
  · exact (h ..).comp (reach ..)
  · exact refl s

theorem adoptLocal (s : State) : Kept s s.adoptLocal ∧ LineKept s s.adoptLocal := by
  unfold State.adoptLocal
  exact ⟨(Kept.onClock ..).trans (.judgeArm _), (LineKept.judgeArm _).comp (.onClock ..)⟩

/-! ## Events of the line and of the roster -/

/-- The bits that end a state outside TRANSMITTING are read, and the line goes to IDLE. -/
theorem idleAfter (b n) {f : LineInterface → LineInterface} (hf : ∀ l, (f l).txQueue = l.txQueue)
    (hr : ∀ l, (f l).requestQueue = l.requestQueue) (hs : ∀ l, (f l).state = l.state) {s : State}
    (h : s.line.state ≠ .transmitting) : Advances s ((s.readLine b n).onLine f).enterLineIdle := by
  have state : ((s.readLine b n).onLine f).line.state ≠ .transmitting := by
    simpa [hs, LineInterface.readRun_eq] using h
  unfold State.enterLineIdle
  refine trans (t := ((s.readLine b n).onLine f).setLine .idle) (of_state ?_ ?_ h ?_ ?_)
    (ite (fun _ => onRoster id) fun _ => refl _)
  · exact ((Kept.readLine ..).trans (.onLine fun h k => by rw [hf, hr]; exact ⟨h, k⟩)).trans (.setLine ..)
  · simp [State.setLine, hf, LineInterface.readRun_eq]
  · simp [State.setLine]
  · simp [State.setLine, State.quietBelow]

theorem startBit {s : State} (h : s.line.state = .idle) :
    Advances s ((s.readLine true 1).setLine .receiving) := by
  refine of_state ((Kept.readLine ..).trans (.setLine ..)) ?_ (by simp [h]) ?_ ?_
  · simp [State.setLine, LineInterface.readRun_eq]
  · simp [State.setLine]
  · simp [State.setLine, State.quietBelow]

/-- R4, R8: a form error is counted on the way into WAIT_QUIET. -/
theorem formError {s t : State} (k : Kept s t) (hq : t.line.txQueue = s.line.txQueue)
    (h : s.line.state ≠ .transmitting) : Advances s (t.count .formErrors).enterWaitQuiet := by
  refine of_state ((k.trans (.count ..)).trans (.enterWaitQuiet _)) hq h ?_ ?_
  · simp [State.enterWaitQuiet]
  · simp [State.enterWaitQuiet, State.quietBelow]

theorem closeRoster (s : State) : Advances s s.closeRoster :=
  of (.closeRoster s) (LineKept.closed.closeRoster s)

/-- ROSTER_MISMATCH becomes live and the arm conditions are judged (R25). -/
theorem mismatched (s : State) :
    Advances s (s.onRoster fun r => { r with mismatch := true }).judgeArm :=
  (judgeArm _).comp (onRoster id)

theorem announced (p) (s : State) :
    Advances s (match s.roster.phase with
      | .settling =>
        s.onRoster (.hear s.serial s.now (.announced (BitVec.ofNat 32 (fieldAt p 0 4))
          (BitVec.ofNat 3 (byteAt p 4)) (bitOf (byteAt p 4) 7)))
      | .closed => (s.onRoster fun r => { r with mismatch := true }).judgeArm) := by
  split
  · exact onRoster (Roster.hear_length _ _ _ _)
  · exact mismatched s

end Sys2Proof.Machine.Advances

namespace Sys2Proof.Machine

/-- Every command but a reset of the whole part is answered with a next state, to which it advances. -/
theorem exec_advances (c : Instr) (s : State) (h : wholeReset c = false) :
    ∃ t, exec c s = .next t ∧ Advances s t := by
  cases c with
  | powerOnReset | pinReset => cases h
  | quietCountReached t =>
    refine ⟨_, rfl, .inLine t fun hs => (Advances.judgeArm _).comp ?_⟩
    exact .idleAfter (s := s.reach t) (f := fun l => { l with lineStuck := false }) _ _ (fun _ => rfl)
      (fun _ => rfl) (fun _ => rfl) (by simp [hs])
  | intermissionEnd t =>
    refine ⟨_, rfl, .inLine t fun hs => ?_⟩
    exact .idleAfter (f := id) (s := s.reach t) false Config.intermissionBits (fun _ => rfl) (fun _ => rfl)
      (fun _ => rfl) (by simp [hs])
  | lineStuck t =>
    refine ⟨_, rfl, .ite (fun _ => (Advances.judgeArm _).comp ?_) fun _ => ?_⟩
    · refine (Advances.of (.raiseLineFault _) (LineKept.closed.raiseLineFault _)).comp ?_
      exact (Advances.lineStuck ..).comp (.reach t s)
    · exact (Advances.lineStuck ..).comp (.reach t s)
  | transmitStart t =>
    refine ⟨_, rfl, .inLine t fun hs => .ite (fun hm => ?_) fun _ => .refl _⟩
    refine (Advances.readLine true 1 ?_).comp ((Advances.drive true _).comp (.transmitStart hs hm))
    simp
  | arbitrationLost t => exact ⟨_, rfl, .inLine t fun _ => .arbitrationLost _⟩
  | clash t =>
    refine ⟨_, rfl, .inLine t fun _ => (Advances.countClash _).comp ?_⟩
    exact .endAttempt false ((Kept.drive ..).trans (.setLine ..)) rfl (by simp [State.setLine])
      (by simp [State.setLine])
  | transmitComplete t =>
    refine ⟨_, rfl, .inLine t fun _ => .endAttempt true ?_ ?_ (by simp) (by simp)⟩
    · exact ((Kept.readLine ..).trans (.drive ..)).trans (.onLine fun h k => ⟨h, k⟩)
    · simp [LineInterface.readRun_eq]
  | formError t =>
    refine ⟨_, rfl, ?_⟩
    split
    · exact .formError (.reach ..) rfl (by simp [*])
    · exact .formError ((Kept.reach ..).trans (.readLine ..)) (by simp [LineInterface.readRun_eq])
        (by simp [*])
    all_goals exact .refl s
  | startBit t => exact ⟨_, rfl, .inLine t fun hs => .startBit hs⟩
  | checkError t | undefinedClass t => exact ⟨_, rfl, .arrive t (.count _) s⟩
  | reply t => exact ⟨_, rfl, .arrive t .refl s⟩
  | stationResetFlush =>
    exact ⟨_, rfl, .ite (fun _ => .of (.resetFlush s) (.resetFlush s)) fun _ => .refl s⟩
  | rosterReopening => exact ⟨_, rfl, .ite (fun _ => .of (.reopen s) (.reopen s)) fun _ => .refl s⟩
  | requestArrival t =>
    exact ⟨_, rfl, .arrive t (.ifTaken _ fun _ _ _ => .of (.joinRequests ..) (.joinRequests ..)) s⟩
  | dispatchUnknown | dispatchBusy => exact ⟨_, rfl, .dispatch _ (fun _ _ => .answer ..) s⟩
  | announceDelayExpiry =>
    refine ⟨_, rfl, ?_⟩
    split
    · exact (Advances.offer rfl _).comp ((Advances.onRoster id).comp (.reach ..))
    · exact .refl s
  | announce t => exact ⟨_, rfl, .arrive t (fun s => .ifLength _ _ (.announced _ s)) s⟩
  | rosterClosing =>
    exact ⟨_, rfl, .ite (fun _ => (Advances.closeRoster _).comp (.reach ..)) fun _ => .refl s⟩
  | digest t =>
    refine ⟨_, rfl, .arrive t (fun s => .ifLength _ _ ?_) s⟩
    split
    · exact .refl s
    · exact .ite (fun _ => .refl s) fun _ => .mismatched s
  | report t =>
    refine ⟨_, rfl, .arrive t (fun s => .ifLength _ _ ?_) s⟩
    split
    · exact .refl s
    · exact .of (.takeReport ..) (.takeReport ..)
  | realMark t r => exact ⟨_, rfl, (Advances.reach t s).trans (.of (.realMark ..) (.realMark ..))⟩
  | shutterFall t =>
    refine ⟨_, rfl, (Advances.reach t s).trans (.ite (fun _ => ?_) fun _ => .refl _)⟩
    exact .of (.exposureClose _) (.exposureClose _)
  | holdoverDeadline =>
    refine ⟨_, rfl, .atInstant _ (fun d s => ?_) s⟩
    exact (Advances.countMark _ _ (.adoptSynthesized d) (.adoptSynthesized d) _).comp
      (.of (.catchUp ..) (.catchUp ..))
  | coastingMark | localMark => exact ⟨_, rfl, .atInstant _ (fun _ _ => .of (.ownMark ..) (.ownMark ..)) s⟩
  | localEntry =>
    refine ⟨_, rfl, .atInstant _ (fun _ s => ?_) s⟩
    exact .countMark _ _ (fun s => (Advances.adoptLocal s).1) (fun s => (Advances.adoptLocal s).2) s
  | acquireTimeout =>
    refine ⟨_, rfl, .atInstant _ (fun _ s => (Advances.judgeArm _).comp ?_) s⟩
    exact (Advances.of (.enterFree _) (LineKept.closed.enterFree _)).comp (.onClock ..)
  | passTick =>
    refine ⟨_, rfl, ?_⟩
    split
    · exact (Advances.of (.issueTick ..) (.issueTick ..)).comp (.reach ..)
    · exact .refl s
  | slewTick =>
    refine ⟨_, rfl, (Advances.of (.slewWork _) (.slewWork _)).comp ?_⟩
    exact (Advances.onClock ..).comp (.reach ..)
  | reportTimerExpiry => exact ⟨_, rfl, .atInstant _ (fun _ => .offerReport) s⟩
  | start t => exact ⟨_, rfl, .arrive t (fun s => .ifLength _ _ (.takeStart _ s)) s⟩
  | decline t => exact ⟨_, rfl, .arrive t (fun s => .ifLength _ _ (.takeDecline _ _ s)) s⟩
  | halt t | genericHalt t =>
    exact ⟨_, rfl, .arrive t (fun s => .ifLength _ _ (.takeHaltTelegram _ _ s)) s⟩
  | axisSetup t => exact ⟨_, rfl, .arriveLoad t _ (MoveStore.takeAxisSetup_wf _) s⟩
  | levelSetup t => exact ⟨_, rfl, .arriveLoad t _ (MoveStore.takeLevelSetup_wf _) s⟩
  | cueSetup t => exact ⟨_, rfl, .arriveLoad t _ (MoveStore.takeCueSetup_wf _) s⟩
  | keys t => exact ⟨_, rfl, .arriveLoad t _ (MoveStore.takeAxisKeys_wf _) s⟩
  | levelKeys t => exact ⟨_, rfl, .arriveLoad t _ (MoveStore.takeLevelKeys_wf _) s⟩
  | cues t => exact ⟨_, rfl, .arriveLoad t _ (MoveStore.takeCues_wf _) s⟩
  | status => exact ⟨_, rfl, .handle _ _ .handleStatus s⟩
  | clearFault => exact ⟨_, rfl, .handle _ _ .handleClearFault s⟩
  | cue => exact ⟨_, rfl, .handle _ _ .handleCue s⟩
  | seek => exact ⟨_, rfl, .handle _ _ .handleSeek s⟩
  | jog => exact ⟨_, rfl, .handle _ _ .handleJog s⟩
  | returnPath => exact ⟨_, rfl, .handle _ _ .handleReturn s⟩
  | beginLoad => exact ⟨_, rfl, .handle _ _ .handleBeginLoad s⟩
  | commitLoad => exact ⟨_, rfl, .handle _ _ .handleCommitLoad s⟩
  | validationEnd =>
    refine ⟨_, rfl, .atInstant _ (fun _ s => ?_) s⟩
    split
    · split
      · exact .rejectMove ..
      · exact .acceptMove ..
    · exact .refl s
  | setChannelAxis => exact ⟨_, rfl, .handle _ _ .handleSetAxis s⟩
  | setChannelStation => exact ⟨_, rfl, .handle _ _ .handleSetStation s⟩
  | setDisposition => exact ⟨_, rfl, .handle _ _ .handleSetDisposition s⟩
  | setReference => exact ⟨_, rfl, .handle _ _ .handleSetReference s⟩
  | readPass => exact ⟨_, rfl, .handle _ _ .handleReadPass s⟩
  | readDeviations => exact ⟨_, rfl, .handle _ _ .handleReadDeviations s⟩
  | setLevel => exact ⟨_, rfl, .handle _ _ .handleSetLevel s⟩
  | stationReset => exact ⟨_, rfl, .handle _ _ .handleStationReset s⟩
  | rosterReopen => exact ⟨_, rfl, .handle _ _ .handleRosterReopen s⟩
  | stepLeadingEdge a =>
    exact ⟨_, rfl, .atInstant _ (fun _ _ => (Advances.judgeArm _).comp (.onAxis ..)) s⟩
  | stepTrailingEdge a => exact ⟨_, rfl, .atInstant _ (fun _ _ => .onAxis ..) s⟩
  | encoderChange t a => exact ⟨_, rfl, (Advances.onAxis ..).comp (.reach t s)⟩
  | limitInputFalling t a side =>
    refine ⟨_, rfl, (Advances.judgeArm _).comp ((Advances.raise ..).comp ((Advances.suppress ..).comp ?_))⟩
    exact (Advances.onSup (by cases side <;> rfl)).comp (.reach t s)
  | limitInputRising t a side =>
    refine ⟨_, rfl, (Advances.judgeArm _).comp ?_⟩
    exact (Advances.onSup (by cases side <;> rfl)).comp (.reach t s)
  | driveFaultInputFalling t a =>
    refine ⟨_, rfl, (Advances.judgeArm _).comp ((Advances.raise ..).comp ((Advances.suppress ..).comp ?_))⟩
    exact (Advances.onSup rfl).comp (.reach t s)
  | driveFaultInputRising t a =>
    exact ⟨_, rfl, (Advances.judgeArm _).comp ((Advances.onSup rfl).comp (.reach t s))⟩
  | estopFalling t =>
    refine ⟨_, rfl, (Advances.judgeArm _).comp ((Advances.raise ..).comp ?_)⟩
    exact (Advances.onSup rfl).comp (.reach t s)
  | estopRising t =>
    exact ⟨_, rfl, (Advances.judgeArm _).comp ((Advances.onSup rfl).comp (.reach t s))⟩
  | scanComplete r =>
    refine ⟨_, rfl, .ite (fun _ => ?_) fun _ => (Advances.takeScan ..).comp ?_⟩
    all_goals exact (Advances.onSup rfl).comp (.reach ..)
  | pwmPeriodBoundary =>
    refine ⟨_, rfl, .of ?_ (.of_eq rfl)⟩
    exact ⟨rfl, rfl, rfl, Nat.le_max_left .., id, id, id, id, id⟩

end Sys2Proof.Machine
end

section
/-! PROOFS. Every step keeps the bounds and the transmit queue's form (O7, O13), and what the two resets
leave (O8). -/

namespace Sys2Proof.Machine

theorem afterReset_bounded (cause : ResetCause) (rate : LineRate) (participant : Bool) (serial : Word32)
    (encoders : Vector (Bool × Bool) 4) (pending : List Instr) (free : Nat) :
    (State.afterReset cause rate participant serial encoders pending free).bounded = true := by
  simp [State.bounded, State.afterReset, State.cellsWf, State.queuesFit, State.rosterFits, State.countersFit,
    State.registrationFits, LineInterface.reset, Roster.reset, MoveStore.reset, Registration.reset,
    Supervision.reset, Cells.wf, Config.rosterCapacity]

theorem afterReset_axis (cause : ResetCause) (rate : LineRate) (participant : Bool) (serial : Word32)
    (encoders : Vector (Bool × Bool) 4) (pending : List Instr) (free : Nat) (a : Fin 4) :
    (State.afterReset cause rate participant serial encoders pending free).axes[a] =
      .resetWith encoders[a] := by
  fin_cases a <;> rfl

/-- A reset's command leaves the part as `State.afterReset` describes it. -/
theorem exec_of_wholeReset {c : Instr} (h : wholeReset c = true) (s : State) :
    ∃ cause rate participant encoders, exec c s =
      .next (.afterReset cause rate participant s.serial encoders s.pending s.free) := by
  cases c with
  | powerOnReset rate participant => exact ⟨_, _, _, _, rfl⟩
  | pinReset rate participant => exact ⟨_, _, _, _, rfl⟩
  | _ => cases h

/-- A step is the effect of one command, or one base clock. -/
theorem step_cases {s t : State} (h : step s = .next t) :
    (∃ c rest, exec c { s with pending := rest } = .next t) ∨ t = s.baseClock := by
  unfold step at h
  split at h
  · exact .inl ⟨_, _, h⟩
  · split at h
    · exact .inl ⟨_, _, h⟩
    · exact .inr (Host.Outcome.next.inj h).symm

/-- Every step is a reset of the whole part, or it advances from the state without its front command. -/
theorem step_reset_or_advances {s t : State} (h : step s = .next t) :
    (∃ cause rate participant encoders rest,
      t = .afterReset cause rate participant s.serial encoders rest s.free) ∨
    ∃ rest, Advances { s with pending := rest } t := by
  obtain ⟨c, rest, hc⟩ | rfl := step_cases h
  · cases hw : wholeReset c with
    | true =>
      obtain ⟨cause, rate, participant, encoders, he⟩ := exec_of_wholeReset hw { s with pending := rest }
      exact .inl ⟨cause, rate, participant, encoders, rest, Host.Outcome.next.inj (hc.symm.trans he)⟩
    | false =>
      obtain ⟨u, hu, ha⟩ := exec_advances c { s with pending := rest } hw
      exact .inr ⟨rest, Host.Outcome.next.inj (hc.symm.trans hu) ▸ ha⟩
  · exact .inr ⟨s.pending, .of ⟨rfl, rfl, rfl, Nat.le_succ _, id, id, id, id, id⟩ (.of_eq rfl)⟩

theorem Advances.bounded {s t : State} (h : Advances s t) (hs : s.bounded = true) : t.bounded = true := by
  simp only [State.bounded, Bool.and_eq_true] at hs ⊢
  obtain ⟨⟨⟨⟨hcells, hqueues⟩, hroster⟩, hcounters⟩, hregistration⟩ := hs
  exact ⟨⟨⟨⟨h.kept.cells hcells, h.kept.queues hqueues⟩, h.kept.roster hroster⟩,
    h.kept.counters hcounters⟩, h.kept.registration hregistration⟩

end Sys2Proof.Machine

open Sys2Proof Sys2Proof.Machine

/-- Settles O7: a reset meets the bounds (`afterReset_bounded`), and every other command keeps them
(`exec_advances`). -/
theorem boundsKeptByEveryStep : Obligations.BoundsKeptByEveryStep := by
  unfold Obligations.BoundsKeptByEveryStep
  intro s t hs h
  obtain ⟨_, _, _, _, _, rfl⟩ | ⟨rest, ha⟩ := step_reset_or_advances h
  · exact afterReset_bounded ..
  · exact ha.bounded hs

/-- Settles O13: a reset leaves the queue empty in WAIT_QUIET at a count of 0, and every other command
keeps what is said of it (`exec_advances`). -/
theorem transmitQueueKeptByEveryStep : Obligations.TransmitQueueKeptByEveryStep := by
  unfold Obligations.TransmitQueueKeptByEveryStep
  intro s t h
  obtain ⟨_, _, _, _, _, rfl⟩ | ⟨rest, ha⟩ := step_reset_or_advances h
  · exact ⟨fun _ => .nil, fun _ => rfl, fun _ _ => Nat.zero_lt_succ 10⟩
  · exact ⟨ha.ordered, ha.attempt, ha.quiet⟩

/-- Settles O8: both resets leave the one state `State.afterReset`, read block by block. -/
theorem resetsStartThePart : Obligations.ResetsStartThePart := by
  unfold Obligations.ResetsStartThePart
  refine ⟨afterReset_bounded .., fun rate participant s c cause h => ?_⟩
  refine ⟨.afterReset cause rate participant s.serial
    (s.axes.map AxisChannel.encoderInputs) s.pending s.free, ?_, ?_⟩
  · obtain ⟨rfl, rfl⟩ | ⟨rfl, rfl⟩ := h <;> rfl
  · refine ⟨afterReset_bounded .., rfl, rfl, rfl, rfl, rfl, rfl, rfl, rfl, rfl, rfl, rfl, rfl, rfl, rfl,
      rfl, rfl, rfl, rfl, rfl, rfl, rfl, rfl, rfl, rfl, fun a => ?_, rfl, rfl, rfl, ?_, ?_, rfl, ?_, ?_, rfl⟩
    · rw [afterReset_axis]
      simp [AxisChannel.resetWith]
    · exact fun l => by fin_cases l <;> exact ⟨rfl, rfl⟩
    · exact fun i => by fin_cases i <;> exact ⟨rfl, rfl⟩
    · exact fun i => by fin_cases i <;> rfl
    · exact fun k => by cases k <;> rfl

end

section
/-! PROOFS. The coding of the line: stuff bits (R3, R9; O2), and reading back what was sent (R2, R3, R8;
O1). -/

namespace Sys2Proof.Machine

/-- The length of the run of equal bits that `b` ends, after a run of `run` bits of level `last`. -/
def runWith (last : Bool) (run : Nat) (b : Bool) : Nat := if b == last then run + 1 else 1

@[simp] theorem runWith_self (b : Bool) (run : Nat) : runWith b run b = run + 1 := by simp [runWith]

theorem runWith_le {last b : Bool} {run n : Nat} (h : run < n) : runWith last run b ≤ n := by
  unfold runWith
  split <;> omega

theorem stuff_cons_full {last b : Bool} {run : Nat} (h : runWith last run b = 6) (bs : List Bool) :
    stuff last run (b :: bs) = b :: (!b) :: stuff (!b) 1 bs := if_pos h

theorem stuff_cons_open {last b : Bool} {run : Nat} (h : runWith last run b ≠ 6) (bs : List Bool) :
    stuff last run (b :: bs) = b :: stuff b (runWith last run b) bs := if_neg h

theorem readBits_cons_full {st : RunState} {b : Bool} (h : runWith st.last st.run b = 6) (n : Nat)
    (bs : List Bool) : readBits st (n + 1) (b :: (!b) :: bs) =
      (readBits ⟨!b, 1⟩ n bs).map fun (xs, r) => (b :: xs, r) := by
  rw [readBits]
  simp only [show (if b == st.last then st.run + 1 else 1) = 6 from h, if_true]
  simp

theorem readBits_cons_open {st : RunState} {b : Bool} (h : runWith st.last st.run b ≠ 6) (n : Nat)
    (bs : List Bool) : readBits st (n + 1) (b :: bs) =
      (readBits ⟨b, runWith st.last st.run b⟩ n bs).map fun (xs, r) => (b :: xs, r) := if_neg h

/-! ## Runs of equal bits -/

/-- A run that is open at the start of a stuffed sequence grows to 6 bits at most. -/
theorem stuff_open_run {bits : List Bool} {last : Bool} {run k : Nat} (hrun : run ≤ 5)
    (h : List.replicate k last <+: stuff last run bits) : run + k ≤ 6 := by
  induction bits generalizing last run k with
  | nil =>
    have : k = 0 := by simpa [stuff] using h
    omega
  | cons b bs ih =>
    cases k with
    | zero => omega
    | succ k =>
      rw [List.replicate_succ] at h
      by_cases hfull : runWith last run b = 6
      · rw [stuff_cons_full hfull, List.cons_prefix_cons] at h
        obtain ⟨rfl, h⟩ := h
        cases k with
        | zero => omega
        | succ k => cases last <;> simp [List.replicate_succ, List.cons_prefix_cons] at h
      · rw [stuff_cons_open hfull, List.cons_prefix_cons] at h
        obtain ⟨rfl, h⟩ := h
        rw [runWith_self] at h hfull
        have := ih (by omega) h
        omega

theorem stuff_no_run_of_seven {bits : List Bool} {last : Bool} {run : Nat} (hrun : run ≤ 5)
    (level : Bool) : ¬ List.replicate 7 level <:+: stuff last run bits := by
  induction bits generalizing last run with
  | nil => simp [stuff]
  | cons b bs ih =>
    -- a run of 1 to 5 bits that the bit `c` ends
    have later {n : Nat} {c : Bool} (hn : 1 ≤ n) (hn' : n ≤ 5) :
        ¬ List.replicate 7 level <:+: c :: stuff c n bs := by
      rw [List.infix_cons_iff, not_or]
      refine ⟨fun h => ?_, ih hn'⟩
      obtain ⟨rfl, h⟩ := List.cons_prefix_cons.mp h
      have := stuff_open_run (k := 6) hn' h
      omega
    by_cases hfull : runWith last run b = 6
    · rw [stuff_cons_full hfull, List.infix_cons_iff, not_or]
      refine ⟨fun h => ?_, later (Nat.le_refl 1) (by decide)⟩
      obtain ⟨rfl, h⟩ := List.cons_prefix_cons.mp h
      cases level <;> simp [List.replicate_succ, List.cons_prefix_cons] at h
    · rw [stuff_cons_open hfull]
      have : 1 ≤ runWith last run b := by unfold runWith; split <;> omega
      have : runWith last run b ≤ 6 := runWith_le (by omega)
      exact later (by omega) (by omega)

/-! ## Reading -/

/-- A reader takes out just the stuff bits that were put in. -/
theorem readBits_stuff (st : RunState) (xs ys rest : List Bool) : ∃ st',
    readBits st xs.length (stuff st.last st.run (xs ++ ys) ++ rest) =
      some (xs, st', stuff st'.last st'.run ys ++ rest) := by
  induction xs generalizing st with
  | nil => exact ⟨st, rfl⟩
  | cons x xs ih =>
    by_cases hfull : runWith st.last st.run x = 6
    · obtain ⟨st', h⟩ := ih ⟨!x, 1⟩
      refine ⟨st', ?_⟩
      rw [List.cons_append, stuff_cons_full hfull, List.length_cons, List.cons_append, List.cons_append,
        readBits_cons_full hfull, h, Option.map_some]
    · obtain ⟨st', h⟩ := ih ⟨x, runWith st.last st.run x⟩
      refine ⟨st', ?_⟩
      rw [List.cons_append, stuff_cons_open hfull, List.length_cons, List.cons_append,
        readBits_cons_open hfull, h, Option.map_some]

@[simp] theorem length_bitsMsb (v n : Nat) : (bitsMsb v n).length = n := by
  induction n with
  | zero => rfl
  | succ n ih => simp [bitsMsb, ih]

/-- Packing bits behind a number shifts the number to the left. -/
theorem foldl_bitsMsb (v n acc : Nat) :
    (bitsMsb v n).foldl (fun acc b => 2 * acc + b.toNat) acc = acc * 2 ^ n + v % 2 ^ n := by
  induction n generalizing acc with
  | zero => simp [bitsMsb, Nat.mod_one]
  | succ n ih =>
    have bit : (bitOf v n).toNat = v / 2 ^ n % 2 := by
      rcases Nat.mod_two_eq_zero_or_one (v / 2 ^ n) with h | h <;> simp [bitOf, h]
    rw [bitsMsb, List.foldl_cons, ih, bit, Nat.pow_succ, Nat.mod_mul]
    ring

theorem numberOf_bitsMsb (v n : Nat) : numberOf (bitsMsb v n) = v % 2 ^ n := by
  simpa [numberOf, packBits] using foldl_bitsMsb v n 0

/-- The bits of a run of bytes spell the bytes, whatever follows them. -/
theorem bytesOfBits_flatMap (bytes : List Byte) (rest : List Bool) :
    bytesOfBits bytes.length ((bytes.flatMap fun b => bitsMsb b.toNat 8) ++ rest) = bytes := by
  induction bytes with
  | nil => rfl
  | cons b bytes ih =>
    rw [List.length_cons, bytesOfBits, List.flatMap_cons, List.append_assoc,
      List.take_left' (length_bitsMsb ..), List.drop_left' (length_bitsMsb ..), ih, numberOf_bitsMsb,
      Nat.mod_eq_of_lt b.isLt, BitVec.ofNat_toNat, BitVec.setWidth_eq]

theorem length_flatMap_bitsMsb (bytes : List Byte) :
    (bytes.flatMap fun b => bitsMsb b.toNat 8).length = 8 * bytes.length := by
  simp [List.length_flatMap, Nat.mul_comm]

/-! ## The fields of a telegram -/

/-- The 18 bits that a receiver reads first: start bit, arbitration field and length (R2). -/
def Telegram.head (g : Telegram) : List Bool :=
  false :: (bitsMsb (arbitrationValue g.cls g.station g.kind) 12 ++ bitsMsb g.payload.length 5)

/-- What follows them: payload and check. -/
def Telegram.tail (g : Telegram) : List Bool :=
  (g.payload.flatMap fun b => bitsMsb b.toNat 8) ++ bitsMsb (crc16 g.body).toNat 16

theorem Telegram.region_eq (g : Telegram) : g.region = g.head ++ g.tail := by
  simp [region, head, tail, body]

theorem Telegram.length_head (g : Telegram) : g.head.length = 18 := by simp [head]

theorem Telegram.length_tail (g : Telegram) : g.tail.length = 8 * g.payload.length + 16 := by
  rw [tail, List.length_append, length_flatMap_bitsMsb, length_bitsMsb]

theorem Telegram.arbitration_of_head (g : Telegram) :
    numberOf ((g.head.drop 1).take 12) = arbitrationValue g.cls g.station g.kind := by
  rw [head, List.drop_one, List.tail_cons, List.take_left' (length_bitsMsb ..), numberOf_bitsMsb]
  refine Nat.mod_eq_of_lt ?_
  have := g.cls.isLt
  have := g.station.isLt
  have := g.kind.isLt
  unfold arbitrationValue
  omega

theorem Telegram.length_of_head (g : Telegram) (h : g.payload.length ≤ 24) :
    numberOf (g.head.drop 13) = g.payload.length := by
  rw [head, List.drop_succ_cons, List.drop_left' (length_bitsMsb ..), numberOf_bitsMsb]
  exact Nat.mod_eq_of_lt (by omega)

theorem Telegram.take_tail (g : Telegram) :
    g.tail.take (8 * g.payload.length) = g.payload.flatMap fun b => bitsMsb b.toNat 8 :=
  List.take_left' (length_flatMap_bitsMsb _)

theorem Telegram.drop_tail (g : Telegram) :
    g.tail.drop (8 * g.payload.length) = bitsMsb (crc16 g.body).toNat 16 :=
  List.drop_left' (length_flatMap_bitsMsb _)

theorem Telegram.checked_bits (g : Telegram) :
    g.head.drop 1 ++ g.tail.take (8 * g.payload.length) = g.body := by
  rw [take_tail, head, body, List.drop_one, List.tail_cons]

theorem class_of_arbitration (cls : BitVec 3) (station : BitVec 5) (kind : BitVec 4) :
    BitVec.ofNat 3 (arbitrationValue cls station kind / 512) = cls := by
  apply BitVec.eq_of_toNat_eq
  rw [BitVec.toNat_ofNat, arbitrationValue]
  omega

theorem station_of_arbitration (cls : BitVec 3) (station : BitVec 5) (kind : BitVec 4) :
    BitVec.ofNat 5 (arbitrationValue cls station kind / 16) = station := by
  apply BitVec.eq_of_toNat_eq
  rw [BitVec.toNat_ofNat, arbitrationValue]
  omega

theorem kind_of_arbitration (cls : BitVec 3) (station : BitVec 5) (kind : BitVec 4) :
    BitVec.ofNat 4 (arbitrationValue cls station kind) = kind := by
  apply BitVec.eq_of_toNat_eq
  rw [BitVec.toNat_ofNat, arbitrationValue]
  omega

theorem Telegram.payload_of_tail (g : Telegram) : bytesOfBits g.payload.length g.tail = g.payload :=
  bytesOfBits_flatMap ..

end Sys2Proof.Machine

open Sys2Proof Sys2Proof.Machine

/-- Settles O1: the reader takes the head of 18 bits, then the payload and the check that its length
announces (`readBits_stuff`), and cuts the fields out of them. -/
theorem lineCodingRoundTrip : Obligations.LineCodingRoundTrip := by
  unfold Obligations.LineCodingRoundTrip
  intro g hg
  obtain ⟨st, hhead⟩ := readBits_stuff ⟨true, 0⟩ g.head g.tail endField
  obtain ⟨st', htail⟩ := readBits_stuff st g.tail [] endField
  rw [g.length_head] at hhead
  rw [g.length_tail, List.append_nil] at htail
  rw [Telegram.lineBits, g.region_eq, judgeBits]
  have check : (crc16 g.body).toNat % 2 ^ 16 = (crc16 g.body).toNat := Nat.mod_eq_of_lt (crc16 g.body).isLt
  simp only [hhead, g.arbitration_of_head, g.length_of_head hg, htail, g.checked_bits, g.drop_tail,
    numberOf_bitsMsb, check, class_of_arbitration, station_of_arbitration, kind_of_arbitration,
    g.payload_of_tail]
  simp [stuff, endField, Config.endBits, Nat.not_lt.mpr hg]

/-- Settles O2: a run is open for 5 bits at most before a bit that may go on with it. -/
theorem stuffedRunsAtMostSix : Obligations.StuffedRunsAtMostSix := by
  unfold Obligations.StuffedRunsAtMostSix
  intro bits before after level h
  exact stuff_no_run_of_seven (Nat.zero_le 5) level ⟨before, after, h.symm⟩

end

section
/-! PROOFS. Placing an offered telegram (R12, R13, R15; O14), and what an outcome makes of the state in the
terms of the statements. -/

namespace Sys2Proof.Machine

/-! ## Outcomes -/

/-- R20: the drawn sequence value and delay. -/
theorem drawAnnounceDelay_eq (now : Nat) (r : Roster) : drawAnnounceDelay now r =
    { r with
      announceSeq := 1103515245#32 * r.announceSeq + 12345#32
      schedule := .delay (now + 50000 *
        (2 + (1103515245#32 * r.announceSeq + 12345#32 : Word32).toNat / 65536 % 39)) } := by
  simp only [drawAnnounceDelay, nextAnnounceSeq, announceDelay, BitVec.add_comm 12345#32]
  simp only [Nat.mul_comm, Config.clocksPerMs]

/-- R15: `State.outcome` takes a telegram's outcome as the statements put it. -/
theorem State.outcomeTaken_outcome (o : TxOwner) (sent : Bool) (s : State) :
    State.outcomeTaken o sent s (s.outcome o sent) := by
  refine ⟨fun h => State.outcome_of_silent h sent s, ?_, ?_, ?_, ?_, ?_⟩
  · rintro rfl; rfl
  · rintro rfl; rfl
  · rintro rfl; rfl
  · rintro rfl h
    have h : s.roster.phase = .closed := by cases hp : s.roster.phase <;> simp_all
    simp [State.outcome, State.onRoster, announceOutcome, h]
  · rintro rfl h
    simp only [State.outcome, State.onRoster, announceOutcome, h, drawAnnounceDelay_eq]
    cases sent <;> by_cases hs : s.roster.schedule = .offered <;> simp [hs]

/-- An ANNOUNCE dropped while the schedule waits for it draws a new delay. -/
theorem State.outcome_announce_dropped {s : State} (hp : s.roster.phase = .settling)
    (hs : s.roster.schedule = .offered) :
    s.outcome .announce false = { s with roster := drawAnnounceDelay s.now s.roster } := by
  simp [State.outcome, State.onRoster, announceOutcome, hp, hs]

theorem State.count_eq (k : Counter) (s : State) : s.count k = { s with sup := { s.sup with
    counters := s.sup.counters.set k.idx (min 255 (s.sup.counters[k.idx] + 1)) } } := rfl

end Sys2Proof.Machine

open Sys2Proof Sys2Proof.Machine

/-- Settles O14: the three ways of R13 are `State.offer_replaces`, `State.offer_places`, and at a full
queue `State.offer_displaces` for a HALT and `State.offer_drops` for any other. -/
theorem offeredTelegramIsPlaced : Obligations.OfferedTelegramIsPlaced := by
  unfold Obligations.OfferedTelegramIsPlaced
  intro e s ho
  refine ⟨State.offer_of_excluded, fun hx => ⟨fun he hw => ?_, fun hr => ⟨fun hl => ?_, fun hl hc hs => ?_,
    fun hl hc => ?_⟩⟩⟩
  · obtain ⟨before, x, behind, hq, hp, hb⟩ := exists_first hw
    refine ⟨before, x, behind, hq, ?_, ?_, State.offer_replaces hx he hq hp hb⟩ <;> simp_all
  · rw [State.offer_places hx hr hl, placeEntry_of_ordered e ho]
    rfl
  · obtain ⟨before, gone, behind, hq, hg, hb, hoffer⟩ := State.offer_displaces hx hr hl hc hs
    refine ⟨before, gone, behind, placeEntry_of_ordered e ho ▸ hq, hg, hb, ?_, ?_, fun h => ?_, fun h => ?_⟩
    · rw [hoffer, State.outcome_line]
      rfl
    · rw [hoffer, State.outcome_sup]
      rfl
    · rw [hoffer, State.outcome_of_silent h]
      rfl
    · rw [hoffer, State.outcome_engine, h]
      rfl
  · rw [State.offer_drops hx hr hl hc]
    refine ⟨?_, ?_, fun h => ?_, fun h hp hs => ?_, fun h => ?_, fun h => ?_⟩
    · rw [State.outcome_line]
      rfl
    · rw [State.outcome_sup]
      rfl
    · rw [State.outcome_of_silent h]
      rfl
    · rw [h, State.outcome_announce_dropped (s := s.count .txDrops) hp hs, drawAnnounceDelay_eq]
      rfl
    · rw [h]
      rfl
    · rw [h]
      rfl

end

section
/-! PROOFS. The line's events (R4 to R9, R11, R12, R16, R17): how bits are read outside WAIT_QUIET, an
arrival, the attempt's start and ends (O17, O18, O20), what a receiver finds (O21), and the request queue
(O22, O23). -/

namespace Sys2Proof.Machine

/-! ## Bits and arrivals -/

/-- Dominant bits read outside WAIT_QUIET lengthen the dominant run. -/
theorem State.readLine_dominant {s : State} (h : s.line.state ≠ .waitQuiet) (n : Nat) :
    s.readLine true (n + 1) =
      { s with line := { s.line with dominantRun := s.line.dominantRun + (n + 1) } } := by
  simp [State.readLine, State.onLine, LineInterface.readRun_eq, h]

/-- A recessive bit read outside WAIT_QUIET ends it. -/
theorem State.readLine_recessive {s : State} (h : s.line.state ≠ .waitQuiet) (n : Nat) :
    s.readLine false (n + 1) = { s with line := { s.line with dominantRun := 0 } } := by
  simp [State.readLine, State.onLine, LineInterface.readRun_eq, h]

theorem State.inLine_of_state {ls : LineState} {s : State} (h : s.line.state = ls) (t : Nat)
    (f : State → State) : s.inLine ls t f = f (s.reach t) := if_pos h

/-- A telegram read without error is acted on in the state once it has been received. -/
theorem State.arrive_of_receiving {s : State} (h : s.line.state = .receiving) (t : Nat) (f : State → State) :
    s.arrive t f = f (s.received t) := by
  rw [State.arrive, State.inLine_of_state h, Config.endBits,
    State.readLine_recessive (by rw [State.reach_line, h]; decide)]
  rfl

/-- R193: a telegram of its table's length is acted on. -/
theorem State.ifLength_of_eq {p : List Byte} {n : Nat} (h : p.length = n) (f : State → State) (s : State) :
    s.ifLength p n f = f s := if_pos h

theorem State.ifLength_of_ne {p : List Byte} {n : Nat} (h : p.length ≠ n) (f : State → State) (s : State) :
    s.ifLength p n f = s.count .formErrors := if_neg h

/-! ## The start of an attempt -/

theorem State.maySend_iff {s : State} : s.maySend = true ↔ (queueHead s.line.txQueue).isSome = true ∧
    s.line.txOff = false ∧ s.line.lineStuck = false ∧ s.engine.nodeState ≠ .excluded := by
  simp [State.maySend, and_assoc]

theorem queueHead_isSome {before behind : List TxEntry} {e : TxEntry} (he : e.cancelled = false) :
    (queueHead (before ++ e :: behind)).isSome = true := by
  rw [queueHead, List.find?_isSome]
  exact ⟨e, by simp, by simp [he]⟩

/-- R12: the attempt's entry is the first one that is not marked for cancellation. -/
theorem markSending_of_head {before behind : List TxEntry} {e : TxEntry}
    (hb : ∀ x ∈ before, x.cancelled = true) (he : e.cancelled = false) :
    markSending (before ++ e :: behind) = before ++ { e with sending := true } :: behind :=
  updateFirst_append (fun x hx => by simp [hb x hx]) (by simp [he])

/-! ## The ends of an attempt -/

/-- The attempt's last bit has lost the arbitration (R5); its entry still stands in the queue. -/
def State.attemptLost (t : Nat) (s : State) : State := { s with
  now := max s.now t, line := { s.line with
    state := .receiving, outputDominant := false, dominantRun := s.line.dominantRun + 1 } }

/-- The attempt's telegram has been sent whole (R7); its entry still stands in the queue. -/
def State.attemptSent (t : Nat) (s : State) : State := { s with
  now := max s.now t, line := { s.line with
    state := .intermission, outputDominant := false, dominantRun := 0, clashRun := 0 } }

section
variable {s : State} (h : s.line.state = .transmitting)
include h

theorem exec_arbitrationLost (t : Nat) :
    exec (.arbitrationLost t) s = .next (s.attemptLost t).loseAttempt := by
  show Host.Outcome.next (s.inLine .transmitting t _) = _
  rw [State.inLine_of_state h, State.readLine_dominant (by rw [State.reach_line, h]; decide)]
  rfl

theorem exec_transmitComplete (t : Nat) :
    exec (.transmitComplete t) s = .next ((s.attemptSent t).endAttempt true) := by
  show Host.Outcome.next (s.inLine .transmitting t _) = _
  rw [State.inLine_of_state h, Config.endBits,
    State.readLine_recessive (by rw [State.reach_line, h]; decide)]
  rfl

end

/-! ## Requests -/

theorem State.taken_iff {target : Byte} {s : State} : s.taken target = true ↔ s.addressed target := by
  unfold State.taken State.addressed
  split <;> simp_all

theorem State.dispatch_of_head {s : State} {r : RequestRecord} {rest : List RequestRecord}
    {test : RequestRecord → Bool} (h : s.line.requestQueue = r :: rest) (ht : test r = true)
    (f : RequestRecord → State → State) : s.dispatch test f = f r (s.dispatched rest) := by
  simp only [State.dispatch, h, ht, if_true]
  rfl

/-- With room in the transmit queue a reply is placed. -/
theorem State.offer_reply {s : State} {rest : List RequestRecord} (h : s.hasRoom) {owner : TxOwner}
    (ho : owner ≠ .report) (r : RequestRecord) (code : ReplyCode) (reason : RefusalReason)
    (content : List Byte) :
    (s.dispatched rest).offer (.new 5 s.stationField r.kind
      (replyHead r.requester code reason ++ content) owner) =
      s.repliedFor owner r rest code.code reason.code content := by
  rw [State.offer_places (s := s.dispatched rest) h.1 (.inl ho) h.2]
  rfl

end Sys2Proof.Machine

open Sys2Proof Sys2Proof.Machine

/-- Settles O17: the three conditions of R4 and the held queue of R9 are `State.maySend`, and the head is the
first entry that is not marked (`markSending_of_head`). -/
theorem attemptTakesTheHead : Obligations.AttemptTakesTheHead := by
  unfold Obligations.AttemptTakesTheHead
  intro t s before behind e hs hq hb he
  have run (u : State) (h : s.inLine .idle t (fun s => if s.maySend then
      ((s.onLine fun l => { l with
        txQueue := markSending l.txQueue, state := .transmitting }).drive true).readLine true 1 else s) = u) :
      exec (.transmitStart t) s = .next u := congrArg Host.Outcome.next h
  refine ⟨fun htx hst hx => run _ ?_, fun h => run _ ?_⟩
  · have may : (s.reach t).maySend = true :=
      State.maySend_iff.2 ⟨by rw [State.reach_line, hq]; exact queueHead_isSome he, htx, hst, hx⟩
    rw [State.inLine_of_state hs, if_pos may, State.readLine_dominant (by simp)]
    simp [State.onLine, State.drive, hq, markSending_of_head hb he, State.reach]
  · have may : ¬ (s.reach t).maySend = true := fun hm => by
      obtain ⟨-, htx, hst, hx⟩ := State.maySend_iff.1 hm
      simp_all
    rw [State.inLine_of_state hs, if_neg may]
    rfl

/-- Settles O18: an unmarked entry waits again (`State.loseAttempt_of_unmarked`), and a marked one leaves with
its outcome (`State.loseAttempt_of_marked`). -/
theorem lostArbitrationWaitsAgain : Obligations.LostArbitrationWaitsAgain := by
  unfold Obligations.LostArbitrationWaitsAgain
  intro t s before behind e hs ha
  rw [exec_arbitrationLost hs]
  refine ⟨fun hc hf => ?_, fun hm => ⟨_, rfl, ?_⟩⟩
  · rw [State.loseAttempt_of_unmarked (s := s.attemptLost t) ha hc hf]
    rfl
  · rw [State.loseAttempt_of_marked (s := s.attemptLost t) ha hm]
    simp [State.outcome_line, State.withQueue, State.attemptLost]

/-- Settles O20: the entry leaves with the outcome SENT (`State.endAttempt_of_attempt`). -/
theorem completedTelegramLeaves : Obligations.CompletedTelegramLeaves := by
  unfold Obligations.CompletedTelegramLeaves
  intro t s before behind e hs ha
  refine ⟨_, exec_transmitComplete hs t, ?_⟩
  rw [State.endAttempt_of_attempt (s := s.attemptSent t) ha]
  have line := State.outcome_line ((s.attemptSent t).withQueue (before ++ behind)) e.owner true
  exact ⟨State.outcome_now .., by rw [line]; rfl, by rw [line]; rfl, by rw [line]; rfl,
    State.outcomeTaken_outcome ..⟩

/-- Settles O21: each finding is an arrival that counts, and a form error counts and begins WAIT_QUIET. -/
theorem receiveFindings : Obligations.ReceiveFindings := by
  unfold Obligations.ReceiveFindings
  intro t s
  refine ⟨fun hs => ?_, fun hs => ?_, fun hs => ?_⟩
  · show Host.Outcome.next _ = _
    rw [hs]
    rfl
  · show Host.Outcome.next _ = _
    rw [hs]
    simp only [State.readLine_dominant (s := s.reach t) (by rw [State.reach_line, hs]; decide)]
    rfl
  have arrival (f : State → State) : s.arrive t f = f (s.received t) := State.arrive_of_receiving hs t f
  refine ⟨?_, ?_, fun station kind payload => ?_, fun telegram hm station payload hl => ?_,
    fun chunk hm station => ?_⟩
  · exact congrArg Host.Outcome.next (arrival _)
  · exact congrArg Host.Outcome.next (arrival _)
  · exact congrArg Host.Outcome.next (arrival _)
  · have wrong (f : State → State) :
        s.arrive t (State.ifLength payload telegram.2 f) = (s.received t).count .formErrors := by
      rw [arrival, State.ifLength_of_ne hl]
    simp only [List.mem_cons, List.not_mem_nil, or_false] at hm
    rcases hm with rfl | rfl | rfl | rfl | rfl | rfl | rfl <;> exact congrArg Host.Outcome.next (wrong _)
  · simp only [List.mem_cons, List.not_mem_nil, or_false] at hm
    rcases hm with rfl | rfl | rfl | rfl | rfl | rfl <;> exact congrArg Host.Outcome.next (arrival _)

/-- Settles O22: the arrival's request is taken by its target (`State.taken_iff`), and the queue's length
decides what becomes of it. -/
theorem requestJoinsTheQueue : Obligations.RequestJoinsTheQueue := by
  unfold Obligations.RequestJoinsTheQueue
  intro t station kind target body s hs
  have run (p : List Byte) : exec (.requestArrival t station kind p) s =
      .next ((s.received t).ifTaken p fun target body =>
        State.joinRequests { requester := station, kind, target, body }) :=
    congrArg Host.Outcome.next (State.arrive_of_receiving hs t _)
  have taken : (s.received t).taken target = true ↔ s.addressed target :=
    State.taken_iff (s := s.received t)
  refine ⟨fun hm hl => ?_, fun hm hl => ?_, fun hm => ?_, run []⟩
  · rw [run, State.ifTaken, if_pos (taken.2 hm), State.joinRequests, if_pos (by exact hl)]
    rfl
  · rw [run, State.ifTaken, if_pos (taken.2 hm), State.joinRequests,
      if_neg (by exact Nat.not_lt.2 hl)]
    rfl
  · rw [run, State.ifTaken, if_neg (mt taken.1 hm)]
    rfl

/-- Settles O23: the dispatcher takes the head and its reply finds room (`State.offer_reply`). -/
theorem dispatcherAnswersItself : Obligations.DispatcherAnswersItself := by
  unfold Obligations.DispatcherAnswersItself
  intro s r rest hq hr
  have reply (code : ReplyCode) : (s.dispatched rest).answer r code = s.replied r rest code.code 0 [] :=
    State.offer_reply hr (by decide) r code .none []
  refine ⟨fun hl => ?_, fun hl hv => ?_⟩
  · exact congrArg Host.Outcome.next ((State.dispatch_of_head hq (by
      simpa [RequestRecord.lengthDefined, RequestRecord.payload, Nat.add_comm] using hl) _).trans (reply _))
  · exact congrArg Host.Outcome.next ((State.dispatch_of_head hq (by
      simpa [RequestRecord.lengthDefined, RequestRecord.payload, Nat.add_comm, hv] using hl) _).trans
        (reply _))

end

section
/-! PROOFS. What the node's own telegrams leave of the state (R13, R92, R111): a REPORT or a DECLINE that is
offered, a change of node state and an arm judgement reach the transmit queue and its drop counter, and
nothing else that they do not name. -/

namespace Sys2Proof.Machine

/-! ## What no offer reaches -/

section
variable (e : TxEntry) (s : State)

@[simp] theorem State.offer_clock : (s.offer e).clock = s.clock := by
  unfold State.offer
  split <;> simp [State.count]

@[simp] theorem State.offer_cues : (s.offer e).cues = s.cues := by
  unfold State.offer
  split <;> simp [State.count]

@[simp] theorem State.offer_nodeState : (s.offer e).engine.nodeState = s.engine.nodeState := by
  unfold State.offer
  split <;> simp [State.count, State.outcome_engine]

@[simp] theorem State.offerReport_clock : s.offerReport.clock = s.clock := by
  unfold State.offerReport
  split_ifs <;> simp

@[simp] theorem State.offerReport_cues : s.offerReport.cues = s.cues := by
  unfold State.offerReport
  split_ifs <;> simp

@[simp] theorem State.offerReport_nodeState : s.offerReport.engine.nodeState = s.engine.nodeState := by
  unfold State.offerReport
  split_ifs <;> simp

end

theorem CueLine.endPulse_inactive {l : CueLine} (h : l.active = false) : l.endPulse.active = false := by
  unfold CueLine.endPulse
  split
  · rfl
  · exact h

/-! ## Telegrams of the node's state -/

/-- From `s` to `t` at most `n` telegrams have been offered, none a HALT and none whose leaving a block waits
for, and beside them only the node state, the report timer, the clock and the cue lines may have changed. -/
structure Tells (n : Nat) (s t : State) : Prop where
  fixed : t = { s with
    line := { s.line with txQueue := t.line.txQueue }
    clock := t.clock, cues := t.cues
    engine := { s.engine with nodeState := t.engine.nodeState, reportStart := t.engine.reportStart }
    sup := { s.sup with counters := t.sup.counters } }
  counters : ∀ k : Fin 11, k ≠ 6 → t.sup.counters[k] = s.sup.counters[k]
  length : t.line.txQueue.length ≤ s.line.txQueue.length + n
  room : s.line.txQueue.length + n ≤ 8 → t.sup = s.sup
  stays : ∀ e ∈ s.line.txQueue, e.owner ≠ .report → e ∈ t.line.txQueue
  timer : t.engine.reportStart = s.engine.reportStart ∨ t.engine.reportStart = s.now
  roll : t.clock.roll = s.clock.roll
  inactive : ∀ i : Fin 8, s.cues[i].active = false → t.cues[i].active = false

namespace Tells

/-- Nothing is offered. -/
theorem of_none {s t : State} (h : t = { s with clock := t.clock, cues := t.cues, engine :=
    { s.engine with nodeState := t.engine.nodeState, reportStart := t.engine.reportStart } })
    (ht : t.engine.reportStart = s.engine.reportStart ∨ t.engine.reportStart = s.now)
    (hr : t.clock.roll = s.clock.roll)
    (hi : ∀ i : Fin 8, s.cues[i].active = false → t.cues[i].active = false) : Tells 0 s t := by
  have line : t.line = s.line := by rw [h]
  have sup : t.sup = s.sup := by rw [h]
  refine ⟨?_, by simp [sup], by simp [line], fun _ => sup,
    fun e he _ => line ▸ he, ht, hr, hi⟩
  rw [line, sup]
  exact h

theorem refl (s : State) : Tells 0 s s := of_none rfl (.inl rfl) rfl fun _ => id

/-- Nothing but the node state, the clock and the cue lines changes. -/
theorem of_untimed {s t : State} (h : t = { s with clock := t.clock, cues := t.cues, engine :=
    { s.engine with nodeState := t.engine.nodeState } }) (hr : t.clock.roll = s.clock.roll)
    (hi : ∀ i : Fin 8, s.cues[i].active = false → t.cues[i].active = false) : Tells 0 s t := by
  have timer : t.engine.reportStart = s.engine.reportStart := by rw [h]
  exact of_none (by rw [timer]; exact h) (.inl timer) hr hi

theorem trans {m n : Nat} {s t u : State} (h : Tells m s t) (k : Tells n t u) : Tells (m + n) s u := by
  refine ⟨?_, fun c hc => (k.counters c hc).trans (h.counters c hc), ?_, fun hl => ?_,
    fun e he ho => k.stays e (h.stays e he ho) ho, ?_, k.roll.trans h.roll,
    fun i => k.inactive i ∘ h.inactive i⟩
  · have hk := k.fixed
    rw [h.fixed] at hk
    exact hk
  · have := h.length
    have := k.length
    omega
  · have := h.length
    rw [k.room (by omega), h.room (by omega)]
  · have now : t.now = s.now := by rw [h.fixed]
    rcases k.timer with hk | hk
    · exact h.timer.imp hk.trans hk.trans
    · exact .inr (hk.trans now)

theorem mono {m n : Nat} {s t : State} (h : Tells m s t) (hn : m ≤ n) : Tells n s t :=
  ⟨h.fixed, h.counters, h.length.trans (by omega), fun hl => h.room (by omega), h.stays, h.timer, h.roll,
   h.inactive⟩

/-- `fixed`, with the blocks that change named whole. -/
theorem frame {n : Nat} {s t : State} (h : Tells n s t) : t = { s with
    line := { s.line with txQueue := t.line.txQueue }
    clock := t.clock, engine := t.engine, cues := t.cues, sup := t.sup } := by
  have engine := congrArg State.engine h.fixed
  have sup := congrArg State.sup h.fixed
  rw [engine, sup]
  exact h.fixed

/-- A telegram that is no HALT and whose leaving nothing waits for is offered. -/
theorem offer {e : TxEntry} (hs : e.sending = false) (hc : e.cls ≠ 0) (ho : e.owner.silent) (s : State) :
    Tells 1 s (s.offer e) := by
  have placed (q : List TxEntry) (hl : q.length ≤ s.line.txQueue.length + 1)
      (hq : ∀ x ∈ s.line.txQueue, x.owner ≠ .report → x ∈ q) : Tells 1 s (s.withQueue q) :=
    ⟨rfl, fun _ _ => rfl, hl, fun _ => rfl, hq, .inl rfl, rfl, fun _ => id⟩
  generalize ht : s.offer e = t
  have h := ht ▸ s.offered hs
  cases h with
  | excluded => exact (refl s).mono (Nat.zero_le 1)
  | replaced before behind x _ hq hr =>
    refine placed _ (by simp [hq]) fun y hy hn => ?_
    rw [hq] at hy
    simp only [List.mem_append, List.mem_cons] at hy ⊢
    rcases hy with hy | rfl | hy
    · exact .inl hy
    · exact absurd hr hn
    · exact .inr (.inr hy)
  | placed =>
    exact placed _ (by simp) fun y hy _ => (placeEntry_perm e _).mem_iff.2 (List.mem_cons_of_mem _ hy)
  | displaced _ _ _ h0 => exact absurd h0 hc
  | dropped _ hl =>
    rw [State.outcome_of_silent ho]
    refine ⟨rfl, fun k hk => ?_, Nat.le_succ _, fun h => absurd h (by omega), fun x hx _ => hx,
      .inl rfl, rfl, fun _ => id⟩
    simp only [State.count_eq, Counter.idx, Fin.getElem_fin]
    exact Vector.getElem_set_ne _ _ fun h => hk (Fin.ext h.symm)

theorem offerNew {cls : BitVec 3} {owner : TxOwner} (hc : cls ≠ 0) (ho : owner.silent) (station : BitVec 5)
    (kind : BitVec 4) (payload : List Byte) (s : State) :
    Tells 1 s (s.offer (.new cls station kind payload owner)) := offer rfl hc ho s

theorem offerReport (s : State) : Tells 1 s s.offerReport := by
  refine RaiseClosed.of_ite (fun _ => (refl s).mono (Nat.zero_le 1)) fun _ => ?_
  have timer : Tells 0 s (if s.engine.nodeState.inPass then s
      else s.onEngine fun e => { e with reportStart := s.now }) :=
    RaiseClosed.of_ite (fun _ => refl s) fun _ => of_none rfl (.inr rfl) rfl fun _ => id
  exact (timer.trans (offerNew (by decide) (by simp [TxOwner.silent]) ..)).mono (Nat.le_refl 1)

theorem offerDecline (f : Nat) (reason : DeclineReason) (s : State) : Tells 1 s (s.offerDecline f reason) :=
  offerNew (by decide) (by simp [TxOwner.silent]) ..

theorem clockExit (s : State) : Tells 0 s s.clockExit := by
  have free : Tells 0 s s.enterFree := of_untimed rfl rfl fun i h => by
    simpa [State.enterFree, State.endPulses] using CueLine.endPulse_inactive h
  unfold State.clockExit
  split
  · exact RaiseClosed.of_ite (fun _ => refl s) fun _ => free
  · exact RaiseClosed.of_ite (fun _ => refl s) fun _ => free
  all_goals exact refl s

end Tells

/-- The part of a change of node state that comes before its REPORT (R179, R43, R44). -/
def State.nodeBecomes (ns : NodeState) (s : State) : State :=
  let s := s.onEngine fun e => { e with nodeState := ns }
  (if ns = .armed then s.onCues CueLine.toRest else s).clockExit

theorem State.enterNode_eq (ns : NodeState) (s : State) : s.enterNode ns =
    if ns.reportsEntry then (s.nodeBecomes ns).offerReport else s.nodeBecomes ns := rfl

namespace Tells

theorem nodeBecomes (ns : NodeState) (s : State) : Tells 0 s (s.nodeBecomes ns) := by
  have entered : Tells 0 s (s.onEngine fun e => { e with nodeState := ns }) := of_untimed rfl rfl fun _ => id
  have rest : ∀ t : State, Tells 0 t (if ns = .armed then t.onCues CueLine.toRest else t) := fun t =>
    RaiseClosed.of_ite (fun _ => of_untimed rfl rfl fun i _ => by simp [CueLine.toRest]) fun _ => refl t
  exact (entered.trans (rest _)).trans (clockExit _)

theorem enterNode (ns : NodeState) (s : State) : Tells 1 s (s.enterNode ns) := by
  rw [State.enterNode_eq]
  have entered := nodeBecomes ns s
  exact RaiseClosed.of_ite (fun _ => (entered.trans (offerReport _)).mono (Nat.le_refl 1))
    fun _ => entered.mono (Nat.zero_le 1)

/-- Outside PENDING the REPORT of the new state is the one telegram of an arm judgement. -/
theorem judgeArm_of_not_pending {s : State} (h : s.engine.nodeState ≠ .pending) : Tells 1 s s.judgeArm := by
  have none : Tells 1 s s := (refl s).mono (Nat.zero_le 1)
  unfold State.judgeArm
  split
  · exact RaiseClosed.of_ite (fun _ => enterNode ..) fun _ => none
  · exact RaiseClosed.of_ite (fun _ => none) fun _ => enterNode ..
  · exact absurd ‹_› h
  all_goals exact none

theorem judgeArm (s : State) : Tells 2 s s.judgeArm := by
  have none : Tells 2 s s := (refl s).mono (Nat.zero_le 2)
  have entered (ns) : Tells 2 s (s.enterNode ns) := (enterNode ns s).mono (by omega)
  unfold State.judgeArm
  split
  · exact RaiseClosed.of_ite (fun _ => entered _) fun _ => none
  · exact RaiseClosed.of_ite (fun _ => none) fun _ => entered _
  · exact RaiseClosed.of_ite (fun _ => none) fun _ => (offerDecline ..).trans (enterNode ..)
  all_goals exact none

end Tells

/-! ## The line's IDLE -/

theorem State.enterLineIdle_eq (s : State) : s.enterLineIdle = { s with
    line := { s.line with state := .idle }
    roster := if s.roster.phase = .settling ∧ s.roster.schedule = .awaitIdle
      then drawAnnounceDelay s.now s.roster else s.roster } := by
  simp only [State.enterLineIdle, State.setLine, State.onLine, State.onRoster]
  by_cases h : s.roster.phase = .settling ∧ s.roster.schedule = .awaitIdle <;> simp [h]

/-- The recessive bits that bring the quiet count to 11 (R4). -/
theorem State.readLine_quiet {s : State} (h : s.line.state = .waitQuiet) (hq : s.line.quietCount < 11) :
    s.readLine false (Config.quietBits - s.line.quietCount) =
      { s with line := { s.line with quietCount := 11, dominantRun := 0 } } := by
  have left : 11 - s.line.quietCount ≠ 0 := by omega
  have all : s.line.quietCount + (11 - s.line.quietCount) = 11 := by omega
  simp [State.readLine, State.onLine, LineInterface.readRun_eq, h, Config.quietBits, left, all]

/-- R4, R9: the line is quiet and goes to IDLE; the arm conditions are not judged yet. -/
def State.quietReached (t : Nat) (s : State) : State :=
  State.enterLineIdle { s with now := max s.now t
                               line := { s.line with quietCount := 11, dominantRun := 0, lineStuck := false } }

theorem exec_quietCountReached {s : State} (h : s.line.state = .waitQuiet) (hq : s.line.quietCount < 11)
    (t : Nat) : exec (.quietCountReached t) s = .next (s.quietReached t).judgeArm := by
  refine congrArg Host.Outcome.next ((State.inLine_of_state h ..).trans ?_)
  rw [State.readLine_quiet (s := s.reach t) h hq]
  rfl

end Sys2Proof.Machine

open Sys2Proof Sys2Proof.Machine

/-- Settles O15: the bits that end WAIT_QUIET bring the quiet count to 11, and the arm judgement that follows
offers telegrams at most (`Tells.judgeArm`). -/
theorem lineStatesFollowTheLine : Obligations.LineStatesFollowTheLine := by
  unfold Obligations.LineStatesFollowTheLine
  intro t s
  refine ⟨fun hs hq => ?_, fun hs => ?_, fun hs => ?_⟩
  · have told := Tells.judgeArm (s.quietReached t)
    refine ⟨_, exec_quietCountReached hs hq t, ?_⟩
    generalize (s.quietReached t).judgeArm = u at told ⊢
    have fixed := told.frame
    rw [State.quietReached, State.enterLineIdle_eq, drawAnnounceDelay_eq] at fixed
    have now := congrArg State.now fixed
    have roster := congrArg State.roster fixed
    have line := congrArg State.line fixed
    refine ⟨now, roster, line, ?_⟩
    rw [now, roster, line]
    exact fixed
  · refine congrArg Host.Outcome.next ((State.inLine_of_state hs ..).trans ?_)
    rw [Config.intermissionBits, State.readLine_recessive (by rw [State.reach_line, hs]; decide),
      State.enterLineIdle_eq, drawAnnounceDelay_eq]
    rfl
  · refine congrArg Host.Outcome.next ((State.inLine_of_state hs ..).trans ?_)
    rw [State.readLine_dominant (by rw [State.reach_line, hs]; decide)]
    rfl

end

section
/-! PROOFS. Emptying the transmit queue (R15) and what follows it: STATION_RESET_FLUSH (O24) and the
reopening of the roster (O29). -/

namespace Sys2Proof.Machine

/-! ## Telegrams that leave unsent -/

theorem announceOutcome_unsent (now : Nat) (r : Roster) : announceOutcome false now r =
    if r.phase = .closed ∨ r.schedule ≠ .offered then r else drawAnnounceDelay now r := by
  by_cases hp : r.phase = .closed <;> by_cases hs : r.schedule = .offered <;>
    simp [announceOutcome, hp, hs]

/-- From `s` to `t` telegrams have left the queue unsent, each with its outcome. -/
structure Flushed (s t : State) : Prop where
  fixed : t = { s with
    engine := { s.engine with halt := { s.engine.halt with ownHalt := t.engine.halt.ownHalt } }
    roster := { s.roster with announceSeq := t.roster.announceSeq, schedule := t.roster.schedule }
    line := { s.line with flushDue := t.line.flushDue, reopenDue := t.line.reopenDue } }
  ownHalt : s.engine.halt.ownHalt = none → t.engine.halt.ownHalt = none
  roster : s.roster.phase = .closed ∨ s.roster.schedule ≠ .offered → t.roster = s.roster
  flushDue : s.line.flushDue = true → t.line.flushDue = true
  reopenDue : s.line.reopenDue = true → t.line.reopenDue = true

namespace Flushed

theorem refl (s : State) : Flushed s s := ⟨rfl, id, fun _ => rfl, id, id⟩

theorem trans {s t u : State} (h : Flushed s t) (k : Flushed t u) : Flushed s u := by
  refine ⟨?_, k.ownHalt ∘ h.ownHalt, fun hc => ?_, k.flushDue ∘ h.flushDue, k.reopenDue ∘ h.reopenDue⟩
  · have hk := k.fixed
    rw [h.fixed] at hk
    exact hk
  · have roster := h.roster hc
    rw [k.roster (by rw [roster]; exact hc), roster]

theorem outcome (o : TxOwner) (s : State) : Flushed s (s.outcome o false) := by
  have roster : (s.outcome o false).roster = { s.roster with
      announceSeq := (s.outcome o false).roster.announceSeq
      schedule := (s.outcome o false).roster.schedule } := by
    rw [State.outcome_roster, announceOutcome_unsent]
    split_ifs <;> rfl
  refine ⟨?_, fun h => ?_, fun h => ?_, fun h => ?_, fun h => ?_⟩
  · rw [← roster]
    unfold State.outcome
    split <;> rfl
  · simp [State.outcome_engine, h]
  · simp only [State.outcome_roster, announceOutcome_unsent, if_pos h, ite_self]
  · simp [State.outcome_line, h]
  · simp [State.outcome_line, h]

theorem outcomes (es : List TxEntry) (s : State) : Flushed s (s.outcomes false es) :=
  State.outcomes_induct (fun _ _ h => h.trans (outcome ..)) es (refl s)

end Flushed

/-! ## Emptying -/

/-- What an emptying leaves in the queue: the entries spared, and the one in transmission, marked. -/
def State.keptQueue (keep : TxEntry → Bool) (s : State) : List TxEntry :=
  (s.line.txQueue.filter fun e => e.sending || keep e).map fun e =>
    if e.sending && !keep e then { e with flushing := true } else e

theorem Flushed.emptyTx (keep : TxEntry → Bool) (s : State) :
    Flushed (s.withQueue (s.keptQueue keep)) (s.emptyTx keep) := outcomes ..

theorem State.emptyTx_queue (keep : TxEntry → Bool) (s : State) :
    (s.emptyTx keep).line.txQueue = s.keptQueue keep :=
  congrArg (fun t : State => t.line.txQueue) (Flushed.emptyTx keep s).fixed

/-- Every entry left is in transmission, or one that is spared. -/
theorem State.of_mem_keptQueue {keep : TxEntry → Bool} {s : State} {e : TxEntry}
    (h : e ∈ s.keptQueue keep) : e.sending = true ∨ keep e = true ∧ e ∈ s.line.txQueue := by
  obtain ⟨x, hx, rfl⟩ := List.mem_map.1 h
  obtain ⟨hm, hp⟩ := List.mem_filter.1 hx
  cases hs : x.sending
  · exact .inr (by simpa [hs] using ⟨by simpa [hs] using hp, hm⟩)
  · cases hk : keep x <;> simp [hs]

theorem State.length_keptQueue_le (keep : TxEntry → Bool) (s : State) :
    (s.keptQueue keep).length ≤
      s.line.txQueue.countP TxEntry.sending + (s.line.txQueue.filter keep).length := by
  rw [keptQueue, List.length_map, ← List.countP_eq_length_filter, ← List.countP_eq_length_filter]
  induction s.line.txQueue with
  | nil => simp
  | cons e q ih =>
    simp only [List.countP_cons]
    cases e.sending <;> cases keep e <;> simp <;> omega

/-! ## A REPORT that finds room -/

/-- An offer adds no entry of another owner than its own. -/
theorem State.owner_of_mem_offer {e x : TxEntry} {s : State} (he : e.sending = false)
    (h : x ∈ (s.offer e).line.txQueue) : x ∈ s.line.txQueue ∨ x.owner = e.owner := by
  have placed (hx : x ∈ placeEntry e s.line.txQueue) : x ∈ s.line.txQueue ∨ x.owner = e.owner := by
    rcases List.mem_cons.1 ((placeEntry_perm e _).mem_iff.1 hx) with rfl | hx
    · exact .inr rfl
    · exact .inl hx
  have ho := s.offered he
  generalize s.offer e = t at h ho
  cases ho with
  | excluded => exact .inl h
  | replaced before behind y hr hq hy =>
    rcases List.mem_append.1 h with hx | hx
    · exact .inl (by simp [hq, hx])
    · rcases List.mem_cons.1 hx with rfl | hx
      · exact .inr (hy.trans hr.symm)
      · exact .inl (by simp [hq, hx])
  | placed => exact placed h
  | displaced before behind gone _ hq =>
    rw [State.outcome_line] at h
    refine placed (hq ▸ ?_)
    rcases List.mem_append.1 h with hx | hx <;> simp [hx]
  | dropped =>
    rw [State.outcome_line] at h
    exact .inl h

theorem State.owner_of_mem_offerReport {x : TxEntry} {s : State} (h : x ∈ s.offerReport.line.txQueue) :
    x ∈ s.line.txQueue ∨ x.owner = .report := by
  unfold State.offerReport at h
  split_ifs at h
  · exact .inl h
  all_goals exact State.owner_of_mem_offer rfl h

/-- With room and no REPORT waiting, an offered REPORT waits in the queue. -/
theorem State.offerReport_waits {s : State} (hset : s.engine.nodeState ≠ .settling)
    (hx : s.engine.nodeState ≠ .excluded) (hr : s.line.txQueue.any TxEntry.heldReport = false)
    (hl : s.line.txQueue.length < 8) :
    (s.offerReport.line.txQueue.any fun e =>
      e.owner == .report && !e.sending && e.payload == s.reportPayload) = true := by
  have waits (u : State) (hu : u.engine.nodeState ≠ .excluded) (hq : u.line.txQueue = s.line.txQueue)
      (hp : u.reportPayload = s.reportPayload) :
      ((u.offer (.new 2 u.stationField 0 u.reportPayload .report)).line.txQueue.any fun e =>
        e.owner == .report && !e.sending && e.payload == s.reportPayload) = true := by
    rw [State.offer_places hu (.inr (hq ▸ hr)) (hq ▸ hl), hp]
    refine List.any_eq_true.2 ⟨_, (placeEntry_perm _ _).mem_iff.2 List.mem_cons_self, ?_⟩
    simp [TxEntry.new]
  unfold State.offerReport
  rw [if_neg (by simp [hset, hx])]
  cases hp : s.engine.nodeState.inPass
  · exact waits (s.onEngine fun e => { e with reportStart := s.now }) hx rfl rfl
  · exact waits s hx rfl rfl

/-! ## STATION_RESET_FLUSH -/

/-- Both queues emptied as a STATION_RESET has it, before the REPORT that follows. -/
def State.queuesEmptied (s : State) : State :=
  (s.emptyTx TxEntry.isResetReply).onLine fun l => { l with requestQueue := [], flushDue := false }

theorem State.queuesEmptied_eq (s : State) : s.queuesEmptied = { s with
    engine := { s.engine with
      halt := { s.engine.halt with ownHalt := s.queuesEmptied.engine.halt.ownHalt } }
    roster := { s.roster with
      announceSeq := s.queuesEmptied.roster.announceSeq, schedule := s.queuesEmptied.roster.schedule }
    line := { s.line with
      txQueue := s.keptQueue TxEntry.isResetReply, requestQueue := [], flushDue := false
      reopenDue := s.queuesEmptied.line.reopenDue } } := by
  have h := (Flushed.emptyTx TxEntry.isResetReply s).fixed
  have h' := congrArg (State.onLine fun l => { l with requestQueue := [], flushDue := false }) h
  exact h'

end Sys2Proof.Machine

open Sys2Proof Sys2Proof.Machine

/-- Settles O24: the emptying leaves at most seven entries (`State.length_keptQueue_le`) and none of them a
waiting REPORT, so that the REPORT which follows finds room. -/
theorem resetFlushEmptiesTheQueues : Obligations.ResetFlushEmptiesTheQueues := by
  unfold Obligations.ResetFlushEmptiesTheQueues
  intro s hdue
  have run : exec .stationResetFlush s = .next (s.queuesEmptied).offerReport := by
    show Host.Outcome.next (if s.line.flushDue then s.resetFlush else s) = _
    rw [if_pos hdue]
    rfl
  have told := Tells.offerReport s.queuesEmptied
  have emptied := s.queuesEmptied_eq
  have queue : s.queuesEmptied.line.txQueue = s.keptQueue TxEntry.isResetReply := State.emptyTx_queue ..
  refine ⟨_, run, ?_, ?_, fun e he => ?_, fun hset hx hone hl => ?_, ?_⟩
  · rw [told.fixed]
    rfl
  · rw [told.fixed]
    rfl
  · rcases State.owner_of_mem_offerReport he with he | he
    · rcases State.of_mem_keptQueue (queue ▸ he) with h | h
      · exact .inl h
      · exact .inr (.inl h.1)
    · exact .inr (.inr he)
  · have payload : s.queuesEmptied.reportPayload = s.reportPayload := by rw [emptied]; rfl
    rw [← payload]
    refine State.offerReport_waits (by rwa [emptied]) (by rwa [emptied]) ?_ ?_
    · rw [queue, List.any_eq_false]
      intro e he
      rcases State.of_mem_keptQueue he with h | h
      · simp [TxEntry.heldReport, h]
      · have owner : e.owner ≠ .report := fun ho => by simp [TxEntry.isResetReply, ho] at h
        simp [TxEntry.heldReport, owner]
    · have := State.length_keptQueue_le TxEntry.isResetReply s
      have : s.line.txQueue.countP TxEntry.sending ≤ 1 := by rw [hone]; split <;> decide
      rw [queue]
      omega
  · have axes : s.queuesEmptied.offerReport.axes = s.axes := by rw [told.fixed, emptied]
    have store : s.queuesEmptied.offerReport.store = s.store := by rw [told.fixed, emptied]
    have reg : s.queuesEmptied.offerReport.reg = s.reg := by rw [told.fixed, emptied]
    have levels : s.queuesEmptied.offerReport.levels = s.levels := by rw [told.fixed, emptied]
    refine ⟨axes, store, ?_, reg, levels, ?_⟩
    · rw [State.offerReport_clock, emptied]
    · rw [State.offerReport_cues, emptied]

end

section
/-! PROOFS. The reopening of the roster (R27; O29). -/

namespace Sys2Proof.Machine

/-- The roster starts again: what stands of it is the resume state and the announce sequence, which draws a
delay at once on an IDLE line. -/
theorem Roster.reopened_eq (serial : Word32) (participant idle : Bool) (now : Nat) (r : Roster) :
    Roster.reopened serial participant idle now r = { Roster.reset serial participant with
      resume := r.resume, quietStart := now
      announceSeq := if idle then nextAnnounceSeq r.announceSeq else r.announceSeq
      schedule := if idle then .delay (now + announceDelay (nextAnnounceSeq r.announceSeq))
        else (Roster.reset serial participant).schedule } := by
  cases idle <;> rfl

/-! ## Abandoning a load (R69) -/

/-- Outside VALIDATING an abandoned load is discarded without a word. -/
theorem State.abandonLoad_quiet {s : State} (h : s.store.phase ≠ .validating) :
    ∃ st, s.abandonLoad = { s with store := st } := by
  unfold State.abandonLoad
  split
  · exact ⟨_, rfl⟩
  · exact absurd ‹_› h
  all_goals exact ⟨_, rfl⟩

/-- The commit's refusal is the one telegram that abandoning a load can offer. -/
theorem State.abandonLoad_tells (s : State) : ∃ st, Tells 1 { s with store := st } s.abandonLoad := by
  by_cases h : s.store.phase = .validating
  · unfold State.abandonLoad
    rw [h]
    dsimp only
    split
    · exact ⟨_, .offerNew (by decide) (by simp [TxOwner.silent]) ..⟩
    · exact ⟨_, (Tells.refl _).mono (Nat.zero_le 1)⟩
  · obtain ⟨st, hst⟩ := State.abandonLoad_quiet h
    exact ⟨st, hst ▸ (Tells.refl _).mono (Nat.zero_le 1)⟩

@[simp] theorem State.abandonLoad_nodeState (s : State) :
    s.abandonLoad.engine.nodeState = s.engine.nodeState := by
  unfold State.abandonLoad
  split
  · rfl
  · split <;> simp [State.refuseCommit]
  all_goals rfl

/-- The move store has no part in what is told. -/
theorem Tells.withStore {n : Nat} {s t : State} (h : Tells n s t) (st : MoveStore) :
    Tells n { s with store := st } { t with store := st } :=
  ⟨congrArg (State.onStore fun _ => st) h.fixed, h.counters, h.length, h.room, h.stays, h.timer,
   h.roll, h.inactive⟩

/-! ## Reopening -/

/-- Both queues emptied as a reopening has it. -/
def State.emptiedForReopening (s : State) : State :=
  (s.keepStopped.emptyTx fun _ => false).onLine fun l => { l with requestQueue := [], reopenDue := false }

theorem State.emptiedForReopening_eq (s : State) : s.emptiedForReopening = { s with
    engine := { s.engine with
      halt := { s.engine.halt with ownHalt := s.emptiedForReopening.engine.halt.ownHalt } }
    roster := { s.roster with
      resume := if s.engine.nodeState = .stopped then .stopped else s.roster.resume
      announceSeq := s.emptiedForReopening.roster.announceSeq
      schedule := s.emptiedForReopening.roster.schedule }
    line := { s.line with
      txQueue := s.keptQueue fun _ => false, requestQueue := []
      flushDue := s.emptiedForReopening.line.flushDue, reopenDue := false } } :=
  congrArg (State.onLine fun l => { l with requestQueue := [], reopenDue := false })
    (Flushed.emptyTx (fun _ => false) s.keepStopped).fixed

/-- The reopening up to its change of node state: the roster started again, any slew dropped. -/
def State.rosterRestarted (s : State) : State :=
  let t := s.emptiedForReopening
  (t.onRoster (.reopened t.serial t.participant (t.line.state == .idle) t.now)).onEngine fun e =>
    { e with slew := none }

theorem State.reopen_eq (s : State) :
    s.reopen = (s.rosterRestarted.nodeBecomes .settling).abandonLoad := rfl

theorem State.rosterRestarted_eq (s : State) : s.rosterRestarted = { s with
    engine := { s.engine with
      slew := none
      halt := { s.engine.halt with ownHalt := s.emptiedForReopening.engine.halt.ownHalt } }
    roster := { Roster.reset s.serial s.participant with
      resume := if s.engine.nodeState = .stopped then .stopped else s.roster.resume
      quietStart := s.now
      announceSeq := s.rosterRestarted.roster.announceSeq
      schedule := s.rosterRestarted.roster.schedule }
    line := { s.line with
      txQueue := s.keptQueue fun _ => false, requestQueue := []
      flushDue := s.emptiedForReopening.line.flushDue, reopenDue := false } } := by
  have emptied := s.emptiedForReopening_eq
  have roster : s.rosterRestarted.roster = { Roster.reset s.serial s.participant with
      resume := if s.engine.nodeState = .stopped then .stopped else s.roster.resume
      quietStart := s.now
      announceSeq := s.rosterRestarted.roster.announceSeq
      schedule := s.rosterRestarted.roster.schedule } := by
    simp only [State.rosterRestarted, State.onEngine_roster, State.onRoster_roster, Roster.reopened_eq]
    rw [emptied]
  rw [← roster]
  calc s.rosterRestarted
    _ = { s.emptiedForReopening with
          engine := { s.emptiedForReopening.engine with slew := none }
          roster := s.rosterRestarted.roster } := rfl
    _ = _ := by
      generalize s.rosterRestarted.roster = r
      rw [emptied]

/-- The announce sequence stands where the roster was CLOSED and the line is not IDLE. -/
theorem State.rosterRestarted_announceSeq {s : State} (hl : s.line.state ≠ .idle)
    (hp : s.roster.phase = .closed) : s.rosterRestarted.roster.announceSeq = s.roster.announceSeq := by
  have emptied := Flushed.emptyTx (fun _ => false) s.keepStopped
  have roster : s.emptiedForReopening.roster = s.keepStopped.roster := emptied.roster (.inl hp)
  have line : s.emptiedForReopening.line.state = s.line.state := by rw [s.emptiedForReopening_eq]
  simp only [State.rosterRestarted, State.onEngine_roster, State.onRoster_roster, Roster.reopened_eq, line,
    beq_eq_false_iff_ne.2 hl, roster, Bool.false_eq_true, if_false]
  rfl

theorem State.nodeBecomes_nodeState (ns : NodeState) (s : State) :
    (s.nodeBecomes ns).engine.nodeState = ns := by
  simp only [State.nodeBecomes, State.clockExit, State.enterFree, State.endPulses]
  split_ifs <;> split <;> simp

theorem State.nodeBecomes_line (ns : NodeState) (s : State) : (s.nodeBecomes ns).line = s.line := by
  simp only [State.nodeBecomes, State.clockExit, State.enterFree, State.endPulses]
  split_ifs <;> split <;> simp

/-- What the reopening leaves: the node SETTLING, the roster as it starts again, one telegram offered at
most. -/
theorem State.reopen_tells (s : State) :
    s.reopen.engine.nodeState = .settling ∧
      ∃ st, Tells 1 { s.rosterRestarted with store := st } s.reopen := by
  rw [State.reopen_eq]
  obtain ⟨st, h⟩ := (s.rosterRestarted.nodeBecomes .settling).abandonLoad_tells
  refine ⟨by rw [State.abandonLoad_nodeState, State.nodeBecomes_nodeState], st, ?_⟩
  exact (((Tells.nodeBecomes .settling s.rosterRestarted).withStore st).trans h).mono (Nat.le_refl 1)

/-- The roster as it starts again. -/
theorem State.reopen_roster (s : State) : s.reopen.roster = { Roster.reset s.serial s.participant with
    resume := if s.engine.nodeState = .stopped then .stopped else s.roster.resume
    quietStart := s.now
    announceSeq := s.rosterRestarted.roster.announceSeq
    schedule := s.rosterRestarted.roster.schedule } := by
  obtain ⟨-, st, told⟩ := s.reopen_tells
  have roster : s.reopen.roster = s.rosterRestarted.roster := by rw [told.fixed]
  have restarted := s.rosterRestarted_eq
  rw [restarted] at roster
  exact roster

theorem State.reopen_line (s : State) : s.reopen.line = { s.line with
    txQueue := s.reopen.line.txQueue, requestQueue := [], reopenDue := false
    flushDue := s.emptiedForReopening.line.flushDue } := by
  obtain ⟨-, st, told⟩ := s.reopen_tells
  have line : s.reopen.line = { s.rosterRestarted.line with txQueue := s.reopen.line.txQueue } :=
    congrArg State.line told.fixed
  have restarted := congrArg State.line s.rosterRestarted_eq
  rw [restarted] at line
  exact line

theorem State.reopen_keeps (s : State) : s.reopen.axes = s.axes ∧ s.reopen.reg = s.reg ∧
    s.reopen.levels = s.levels ∧ s.reopen.now = s.now := by
  obtain ⟨-, st, told⟩ := s.reopen_tells
  have restarted := s.rosterRestarted_eq
  exact ⟨by rw [told.fixed, restarted], by rw [told.fixed, restarted], by rw [told.fixed, restarted],
    by rw [told.fixed, restarted]⟩

/-- With no load VALIDATING nothing is offered: what is left in the queue is in transmission. -/
theorem State.reopen_queue {s : State} (h : s.store.phase ≠ .validating) :
    ∀ e ∈ s.reopen.line.txQueue, e.sending = true := by
  intro e he
  have became := Tells.nodeBecomes .settling s.rosterRestarted
  have store : (s.rosterRestarted.nodeBecomes .settling).store = s.store := by
    rw [became.fixed, s.rosterRestarted_eq]
  obtain ⟨st, hst⟩ := State.abandonLoad_quiet (s := s.rosterRestarted.nodeBecomes .settling) (store ▸ h)
  have queue : s.reopen.line.txQueue = s.keptQueue fun _ => false := by
    rw [State.reopen_eq, hst]
    show (s.rosterRestarted.nodeBecomes .settling).line.txQueue = _
    rw [State.nodeBecomes_line, s.rosterRestarted_eq]
  rcases State.of_mem_keptQueue (queue ▸ he) with hs | ⟨hf, -⟩
  · exact hs
  · cases hf

end Sys2Proof.Machine

open Sys2Proof Sys2Proof.Machine

/-- Settles O29: the reopening is `State.rosterRestarted` with the node's SETTLING told
(`State.reopen_tells`). -/
theorem rosterReopens : Obligations.RosterReopens := by
  unfold Obligations.RosterReopens
  intro s hdue
  have run : exec .rosterReopening s = .next s.reopen := by
    show Host.Outcome.next (if s.line.reopenDue then s.reopen else s) = _
    rw [if_pos hdue]
  have roster := s.reopen_roster
  have line := s.reopen_line
  refine ⟨_, run, s.reopen_tells.1, ?_, ?_, ?_, ?_, ?_, ?_, ?_, ?_, fun hl hp => ?_, ?_, ?_,
    State.reopen_queue, s.reopen_keeps⟩
  · rw [roster]; rfl
  · rw [roster]; rfl
  · rw [roster]; rfl
  · rw [roster]; rfl
  · rw [roster]; rfl
  · rw [roster]; rfl
  · rw [roster]
  · rw [roster]
  · rw [roster]; exact State.rosterRestarted_announceSeq hl hp
  · rw [line]
  · rw [line]

end

section
/-! PROOFS. What a raised cause and the judgements after it leave alone (R92, R187, R22), and how many
telegrams they offer: LINE_STUCK (R9; O16) and CLASH (R6, R7; O19). -/

namespace Sys2Proof.Machine

/-! ## What a raised cause latches -/

@[simp] theorem Supervision.addAxis_latched (c : Cause) (a : Option (Fin 4)) (u : Supervision) :
    (u.addAxis c a).latched = u.latched := by
  unfold Supervision.addAxis
  split <;> rfl

@[simp] theorem Supervision.addOrigin_latched (c : Cause) (n : Option Nat) (u : Supervision) :
    (u.addOrigin c n).latched = u.latched := by
  unfold Supervision.addOrigin
  split
  · split <;> rfl
  · rfl

theorem State.latch_latched (c : Cause) (a : Option (Fin 4)) (n : Option Nat) (s : State) :
    (s.latch c a n).sup.latched = s.sup.latched.set c.idx true := by
  simp [State.latch, Supervision.latch]

theorem State.latchedCause_latch (c : Cause) (a : Option (Fin 4)) (n : Option Nat) (s : State) :
    (s.latch c a n).latchedCause c = true := by
  simp [State.latchedCause, State.latch_latched]

/-! ## What raising, judging and closing leave alone -/

/-- From `s` to `t` no latch and no mark of what is due is lost, the key pool and the levels stand, no counter
but that of the dropped telegrams has changed, and a schedule that is done stays done. -/
structure Calm (s t : State) : Prop where
  levels : t.levels = s.levels
  pool : t.store.pool = s.store.pool
  latched : ∀ c : Fin 18, s.sup.latched[c] = true → t.sup.latched[c] = true
  counters : ∀ k : Fin 11, k ≠ 6 → t.sup.counters[k] = s.sup.counters[k]
  flushDue : s.line.flushDue = true → t.line.flushDue = true
  reopenDue : s.line.reopenDue = true → t.line.reopenDue = true
  done : s.roster.schedule = .done → t.roster.schedule = .done

namespace Calm

theorem refl (s : State) : Calm s s := ⟨rfl, rfl, fun _ => id, fun _ _ => rfl, id, id, id⟩

theorem trans {s t u : State} (h : Calm s t) (k : Calm t u) : Calm s u :=
  ⟨k.levels.trans h.levels, k.pool.trans h.pool, fun c => k.latched c ∘ h.latched c,
   fun c hc => (k.counters c hc).trans (h.counters c hc), k.flushDue ∘ h.flushDue,
   k.reopenDue ∘ h.reopenDue, k.done ∘ h.done⟩

theorem onClock (f) (s : State) : Calm s (s.onClock f) :=
  ⟨rfl, rfl, fun _ => id, fun _ _ => rfl, id, id, id⟩
theorem onEngine (f) (s : State) : Calm s (s.onEngine f) :=
  ⟨rfl, rfl, fun _ => id, fun _ _ => rfl, id, id, id⟩
theorem onAxes (f) (s : State) : Calm s (s.onAxes f) :=
  ⟨rfl, rfl, fun _ => id, fun _ _ => rfl, id, id, id⟩
theorem onCues (f) (s : State) : Calm s (s.onCues f) :=
  ⟨rfl, rfl, fun _ => id, fun _ _ => rfl, id, id, id⟩
theorem withQueue (q) (s : State) : Calm s (s.withQueue q) :=
  ⟨rfl, rfl, fun _ => id, fun _ _ => rfl, id, id, id⟩

theorem onRoster {f : Roster → Roster} (s : State)
    (h : s.roster.schedule = .done → (f s.roster).schedule = .done) : Calm s (s.onRoster f) :=
  ⟨rfl, rfl, fun _ => id, fun _ _ => rfl, id, id, h⟩

theorem count_txDrops (s : State) : Calm s (s.count .txDrops) := by
  refine ⟨rfl, rfl, fun _ => id, fun k hk => ?_, id, id, id⟩
  simp only [State.count_eq, Counter.idx, Fin.getElem_fin]
  exact Vector.getElem_set_ne _ _ fun h => hk (Fin.ext h.symm)

theorem of_flushed {s t : State} (h : Flushed s t) : Calm s t := by
  have sup : t.sup = s.sup := by rw [h.fixed]
  refine ⟨by rw [h.fixed], by rw [h.fixed], by simp [sup], by simp [sup], h.flushDue, h.reopenDue,
    fun hd => ?_⟩
  rw [h.roster (.inr (by simp [hd])), hd]

theorem offer {e : TxEntry} (he : e.sending = false) (s : State) : Calm s (s.offer e) := by
  have h := s.offered he
  generalize s.offer e = t at h
  cases h with
  | excluded => exact refl s
  | replaced => exact withQueue ..
  | placed => exact withQueue ..
  | displaced => exact ((withQueue ..).trans (count_txDrops _)).trans (of_flushed (.outcome ..))
  | dropped => exact (count_txDrops _).trans (of_flushed (.outcome ..))

theorem latch (c : Cause) (a : Option (Fin 4)) (n : Option Nat) (s : State) : Calm s (s.latch c a n) := by
  refine ⟨rfl, rfl, fun k hk => ?_, fun k _ => ?_, id, id, id⟩
  · rw [State.latch_latched]
    simp only [Fin.getElem_fin, Vector.getElem_set] at hk ⊢
    split
    · rfl
    · exact hk
  · simp [State.latch, Supervision.latch]

theorem closed : RaiseClosed Calm where
  refl := refl
  trans := trans
  onClock := onClock
  onEngine := onEngine
  onAxes := onAxes
  onCues := onCues
  latch := latch
  note _ _ := ⟨rfl, rfl, fun _ => id, fun _ _ => rfl, id, id, id⟩
  offer := offer
  emptyTx keep s := (withQueue ..).trans (of_flushed (.emptyTx keep s))
  endWatch s := onRoster s id
  registerEnd _ _ _ := ⟨rfl, rfl, fun _ => id, fun _ _ => rfl, id, id, id⟩
  discard _ := ⟨rfl, rfl, fun _ => id, fun _ _ => rfl, id, id, id⟩
  resumeStopped s := onRoster s id
  phaseClosed s := onRoster s fun _ => rfl

theorem latchedCause {s t : State} (h : Calm s t) {c : Cause} (hc : s.latchedCause c = true) :
    t.latchedCause c = true := h.latched c.idx hc

/-- What comes after the latch of a raised cause. -/
theorem raise_of_latch (c : Cause) (a : Option (Fin 4)) (n : Option Nat) (s : State) :
    Calm (s.latch c a n) (s.raise c a n) := by
  unfold State.raise
  dsimp only
  split
  · exact refl _
  · exact closed.haltRig ..
  · exact closed.stopNow ..

/-- R115: LINE_FAULT is latched when it is raised in a pass. -/
theorem lineFault_of_inPass {s : State} (h : s.engine.nodeState.inPass = true) :
    s.raiseLineFault.latchedCause .lineFault = true := by
  rw [State.raiseLineFault, if_pos h]
  exact (raise_of_latch ..).latchedCause (State.latchedCause_latch ..)

end Calm

/-! ## How many telegrams are offered -/

/-- From `s` to `t` at most `n` telegrams have been offered, so that with `n` places free no entry but a
REPORT, which another may replace, has left the queue or changed. -/
structure Seats (n : Nat) (s t : State) : Prop where
  length : t.line.txQueue.length ≤ s.line.txQueue.length + n
  stays : s.line.txQueue.length + n ≤ 8 → ∀ e ∈ s.line.txQueue, e.owner ≠ .report → e ∈ t.line.txQueue

namespace Seats

theorem of_line {n : Nat} {s t : State} (h : t.line.txQueue = s.line.txQueue) : Seats n s t :=
  ⟨by rw [h]; exact Nat.le_add_right .., fun _ e he _ => h ▸ he⟩

theorem trans {m n : Nat} {s t u : State} (h : Seats m s t) (k : Seats n t u) : Seats (m + n) s u :=
  ⟨by have := h.length; have := k.length; omega, fun hl e he ho =>
    k.stays (by have := h.length; omega) e (h.stays (by omega) e he ho) ho⟩

theorem mono {m n : Nat} {s t : State} (h : Seats m s t) (hn : m ≤ n) : Seats n s t :=
  ⟨h.length.trans (by omega), fun hl => h.stays (by omega)⟩

theorem of_tells {n : Nat} {s t : State} (h : Tells n s t) : Seats n s t := ⟨h.length, fun _ => h.stays⟩

theorem offer {e : TxEntry} (he : e.sending = false) (s : State) : Seats 1 s (s.offer e) := by
  have h := s.offered he
  generalize s.offer e = t at h
  cases h with
  | excluded => exact of_line rfl
  | replaced before behind x _ hq hr =>
    refine ⟨by simp [State.withQueue, hq], fun _ y hy hn => ?_⟩
    have hy : y ∈ before ++ x :: behind := hq ▸ hy
    have : y ≠ x := fun h => hn (h ▸ hr)
    simp only [List.mem_append, List.mem_cons, this, false_or] at hy
    rcases hy with hy | hy <;> simp [State.withQueue, hy]
  | placed =>
    exact ⟨by simp [State.withQueue], fun _ y hy _ =>
      (placeEntry_perm e _).mem_iff.2 (List.mem_cons_of_mem _ hy)⟩
  | displaced before behind gone _ hq _ hl =>
    have := congrArg List.length hq
    simp only [placeEntry_length, List.length_append, List.length_cons] at this
    refine ⟨?_, fun _ => by omega⟩
    simp only [State.outcome_line, State.count_eq, State.withQueue, List.length_append]
    omega
  | dropped _ hl =>
    refine ⟨?_, fun _ => by omega⟩
    simp [State.outcome_line, State.count_eq]

/-- What is done beside the queue first offers nothing. -/
theorem after {n : Nat} {s t u : State} (k : Seats n t u) (h : t.line.txQueue = s.line.txQueue) :
    Seats n s u :=
  ⟨h ▸ k.length, h ▸ k.stays⟩

theorem offerHalt (ramp : Nat) (c : Byte) (s : State) : Seats 1 s (s.offerHalt ramp c) :=
  (offer rfl _).after rfl

theorem ownHaltEvent (c : Byte) (s : State) : Seats 1 s (s.ownHaltEvent c) := by
  unfold State.ownHaltEvent
  split
  · exact of_line rfl
  · exact (offerHalt ..).after rfl

end Seats

/-! ## LINE_FAULT -/

@[simp] theorem State.enterNode_nodeState (ns : NodeState) (s : State) :
    (s.enterNode ns).engine.nodeState = ns := by
  rw [State.enterNode_eq]
  split <;> simp [State.nodeBecomes_nodeState]

/-- R92: outside IDLE, ARMED and PENDING nothing is judged. -/
theorem State.judgeArm_of_unjudged {s : State}
    (h : s.engine.nodeState ∉ [NodeState.idle, .armed, .pending]) : s.judgeArm = s := by
  unfold State.judgeArm
  split <;> simp_all

theorem State.ownHaltEvent_nodeState (c : Byte) (s : State) :
    (s.ownHaltEvent c).engine.nodeState = s.engine.nodeState := by
  unfold State.ownHaltEvent
  split
  · rfl
  · simp [State.offerHalt]

section
variable {s : State} (h : s.engine.nodeState.inPass = true) (c : Cause)
include h

/-- R117: in a pass a halting cause offers a HALT where none is held, and the node state stands. -/
theorem State.haltRig_of_inPass :
    Seats 2 s (s.haltRig c) ∧ (s.haltRig c).engine.nodeState = s.engine.nodeState := by
  unfold State.haltRig
  split
  · exact ⟨(Seats.ownHaltEvent ..).mono (by decide), State.ownHaltEvent_nodeState ..⟩
  · simp_all [NodeState.inPass]
  · simp_all [NodeState.inPass]
  · simp_all [NodeState.inPass]
  · simp_all [NodeState.inPass]
  all_goals exact ⟨Seats.of_line rfl, rfl⟩

/-- R128: in a pass a stopping cause offers a HALT and a REPORT at most, and the node is STOPPED. -/
theorem State.stopNow_of_inPass :
    Seats 2 s (s.stopNow c) ∧ (s.stopNow c).engine.nodeState = .stopped := by
  -- the REPORT of the change of state, behind a HALT at most
  have stopped {t : State} (k : Seats 1 s t) :
      Seats 2 s ((t.registerEnd .stopped (some ⟨c.byte, s.ownNumber⟩)).endWatch).enterStopped ∧
      (((t.registerEnd .stopped (some ⟨c.byte, s.ownNumber⟩)).endWatch).enterStopped).engine.nodeState
        = .stopped := by
    have entered : Seats 1 t ((t.registerEnd .stopped (some ⟨c.byte, s.ownNumber⟩)).endWatch).enterStopped :=
      (Seats.of_tells (.enterNode ..)).after rfl
    exact ⟨k.trans entered, by simp [State.enterStopped]⟩
  have halted : Seats 1 s (match s.engine.halt.rampStart with
      | some _ => s.stopAxes
      | none => s.stopAxes.offerHalt s.engine.ownRampStart c.byte) := by
    split
    · exact Seats.of_line rfl
    · exact (Seats.offerHalt ..).after rfl
  unfold State.stopNow
  split
  · exact stopped halted
  · exact stopped halted
  all_goals simp_all [NodeState.inPass]

end

/-- LINE_FAULT and the arm judgement after it offer two telegrams at most. -/
theorem Seats.lineFault (s : State) : Seats 2 s s.raiseLineFault.judgeArm := by
  unfold State.raiseLineFault
  split
  next h =>
    -- in a pass nothing is left to judge after the cause
    have done {t : State} (k : Seats 2 s t) (hn : t.engine.nodeState = s.engine.nodeState ∨
        t.engine.nodeState = .stopped) : Seats 2 s t.judgeArm := by
      rwa [State.judgeArm_of_unjudged]
      rcases hn with hn | hn <;> rw [hn]
      · exact fun hm => by simp at hm; rcases hm with hm | hm | hm <;> simp [hm, NodeState.inPass] at h
      · decide
    unfold State.raise
    dsimp only
    split
    · exact done (Seats.of_line rfl) (.inl rfl)
    · have hr := State.haltRig_of_inPass (s := s.latch .lineFault none none) h .lineFault
      exact done (hr.1.after rfl) (.inl hr.2)
    · have hr := State.stopNow_of_inPass (s := s.latch .lineFault none none) h .lineFault
      exact done (hr.1.after rfl) (.inr hr.2)
  next => exact .of_tells (.judgeArm s)

end Sys2Proof.Machine
end

section
/-! PROOFS. LINE_STUCK (R9; O16) and CLASH (R6, R7; O19). -/

namespace Sys2Proof.Machine

/-! ## The attempt that LINE_STUCK ends -/

/-- A lost attempt drops its entry or puts it back to waiting. -/
theorem State.loseAttempt_flushed (s : State) : ∃ q, Flushed (s.withQueue q) s.loseAttempt := by
  unfold State.loseAttempt
  split
  · exact ⟨_, .refl s⟩
  · split
    · unfold State.endAttempt
      split
      · exact ⟨_, .refl s⟩
      · exact ⟨_, .outcome ..⟩
    · exact ⟨_, .refl _⟩

theorem map_sending_false {q : List TxEntry} (h : ∀ x ∈ q, x.sending = false) :
    q.map (fun e => { e with sending := false }) = q := by
  conv_rhs => rw [← List.map_id q]
  refine List.map_congr_left fun x hx => ?_
  rw [← h x hx]
  rfl

/-- An entry that still waits should its attempt be lost (R5, R14, R15). -/
def TxEntry.waitsOn (e : TxEntry) : Bool := !(e.sending && (e.cancelled || e.flushing))

/-- An attempt that is lost or stopped leaves its entry waiting, or takes it out where it is marked. -/
theorem State.loseAttempt_queue {s : State} (h : s.line.txQueue.countP TxEntry.sending ≤ 1) :
    s.loseAttempt.line.txQueue =
      (s.line.txQueue.filter TxEntry.waitsOn).map fun e => { e with sending := false } := by
  have waiting (q : List TxEntry) (hq : ∀ x ∈ q, x.sending = false) :
      (q.filter TxEntry.waitsOn).map (fun e => { e with sending := false }) = q := by
    rw [List.filter_eq_self.2 fun x hx => by simp [TxEntry.waitsOn, hq x hx], map_sending_false hq]
  by_cases hz : s.line.txQueue.countP TxEntry.sending = 0
  · have hn : ∀ x ∈ s.line.txQueue, x.sending = false := by simpa [List.countP_eq_zero] using hz
    rw [State.loseAttempt_of_none hn, waiting _ hn]
  · obtain ⟨before, e, behind, ha⟩ := s.exists_attempt (by omega)
    obtain ⟨hq, he, hn⟩ := id ha
    have hb := waiting before fun x hx => hn x (by simp [hx])
    have hbe := waiting behind fun x hx => hn x (by simp [hx])
    rw [hq, List.filter_append, List.map_append, hb]
    by_cases hm : e.cancelled = true ∨ e.flushing = true
    · have left : ¬ e.waitsOn = true := by simpa [TxEntry.waitsOn, he, or_iff_not_imp_left] using hm
      rw [List.filter_cons_of_neg left, hbe, State.loseAttempt_of_marked ha hm, State.outcome_line]
      rfl
    · obtain ⟨hc, hf⟩ : e.cancelled = false ∧ e.flushing = false := by simpa using hm
      rw [List.filter_cons_of_pos (by simp [TxEntry.waitsOn, hc, hf]), List.map_cons, hbe,
        State.loseAttempt_of_unmarked ha hc hf]
      rfl

/-! ## LINE_STUCK -/

/-- The interface once the 32nd dominant bit is read: nothing is judged yet (R9). -/
def State.lineHeld (t : Nat) (s : State) : State :=
  let s := s.reach t
  let s := (s.readLine true (Config.stuckBits - s.line.dominantRun)).drive false
  (s.loseAttempt.onLine fun l => { l with lineStuck := true }).enterWaitQuiet

theorem exec_lineStuck (t : Nat) (s : State) : exec (.lineStuck t) s = .next
    (if s.line.lineStuck then s.lineHeld t else (s.lineHeld t).raiseLineFault.judgeArm) := by
  show Host.Outcome.next (if !s.line.lineStuck then _ else _) = _
  cases s.line.lineStuck <;> rfl

/-- The interface as the 32nd dominant bit finds it, its attempt not yet ended. -/
def State.stuckBit (t : Nat) (s : State) : State := { s with
  now := max s.now t, line := { s.line with
    outputDominant := false, dominantRun := max 32 s.line.dominantRun
    quietCount := if s.line.dominantRun < 32 ∧ s.line.state = .waitQuiet then 0 else s.line.quietCount } }

theorem State.lineHeld_eq (t : Nat) (s : State) : s.lineHeld t =
    (((s.stuckBit t).loseAttempt).onLine fun l => { l with lineStuck := true }).enterWaitQuiet := by
  have bits : ((s.reach t).readLine true (Config.stuckBits - (s.reach t).line.dominantRun)).drive false =
      s.stuckBit t := by
    simp only [State.readLine, State.drive, State.onLine, LineInterface.readRun_eq, State.reach,
      State.stuckBit, Config.stuckBits]
    congr 2 <;> grind
  rw [State.lineHeld, ← bits]

theorem State.lineHeld_line (t : Nat) (s : State) : (s.lineHeld t).line = { s.line with
    state := .waitQuiet, quietCount := 0, dominantRun := max 32 s.line.dominantRun
    outputDominant := false, lineStuck := true, txQueue := (s.lineHeld t).line.txQueue
    flushDue := (s.lineHeld t).line.flushDue, reopenDue := (s.lineHeld t).line.reopenDue } := by
  rw [State.lineHeld_eq]
  simp only [State.enterWaitQuiet, State.onLine]
  rw [State.loseAttempt_line]
  rfl

/-- Beside the line an outcome at most has changed anything. -/
theorem State.lineHeld_blocks (t : Nat) (s : State) : s.lineHeld t = { s with
    now := max s.now t, line := (s.lineHeld t).line, roster := (s.lineHeld t).roster
    engine := { s.engine with halt := (s.lineHeld t).engine.halt } } := by
  obtain ⟨q, h⟩ := (s.stuckBit t).loseAttempt_flushed
  have fixed := h.fixed
  rw [State.lineHeld_eq]
  generalize (s.stuckBit t).loseAttempt = v at fixed
  rw [fixed]
  rfl

theorem State.armHolds_of_blocked {s : State} (h : s.blocked = true) : s.armHolds = false := by
  simp [State.armHolds, h]

/-- With no pass, no PENDING and no ARMED node to act on, a held line has nothing judged. -/
theorem State.lineFault_unjudged {s : State} (hl : s.line.lineStuck = true)
    (h : s.engine.nodeState ∉ [NodeState.armed, .pending, .running, .halting]) :
    s.raiseLineFault.judgeArm = s := by
  have quiet : s.raiseLineFault = s := by
    rw [State.raiseLineFault, if_neg]
    cases hs : s.engine.nodeState <;> simp_all [NodeState.inPass]
  rw [quiet]
  by_cases hi : s.engine.nodeState = .idle
  · simp [State.judgeArm, hi, State.armHolds_of_blocked, State.blocked, hl]
  · exact State.judgeArm_of_unjudged (by simp_all)

/-! ## CLASH -/

/-- The interface releases its output at a clash; the attempt's entry still stands in the queue (R6). -/
def State.clashed (t : Nat) (s : State) : State :=
  { s with now := max s.now t, line := { s.line with outputDominant := false, state := .receiving } }

theorem exec_clash {s : State} {before behind : List TxEntry} {e : TxEntry}
    (h : s.line.state = .transmitting) (ha : s.attempt before e behind) (t : Nat) : exec (.clash t) s =
      .next ((((s.clashed t).withQueue (before ++ behind)).outcome e.owner false).countClash) := by
  rw [← State.endAttempt_of_attempt (s := s.clashed t) ha]
  exact congrArg Host.Outcome.next (State.inLine_of_state h ..)

/-- A clash counted without a look at TX_OFF (R6, R7). -/
def State.clashCounted (s : State) : State :=
  (s.count .clashes).onLine fun l => { l with
    clashRun := min 16 (s.line.clashRun + 1)
    txOff := s.line.txOff || decide (16 ≤ s.line.clashRun + 1) }

/-- The outcome and the counts of a clash do not meet. -/
theorem State.clashCounted_outcome (o : TxOwner) (s : State) :
    (s.outcome o false).clashCounted = s.clashCounted.outcome o false := by
  unfold State.outcome
  split <;> rfl

/-- Below the 16th clash, or with TX_OFF live already, the counts are all. -/
theorem State.clashCounted_below {s : State} (h : s.line.clashRun + 1 < 16 ∨ s.line.txOff = true) :
    s.clashCounted = { s with
      line := { s.line with clashRun := min 16 (s.line.clashRun + 1) }
      sup := { s.sup with counters := s.sup.counters.set 5 (min 255 (s.sup.counters[5] + 1)) } } := by
  have same : (s.line.txOff || decide (16 ≤ s.line.clashRun + 1)) = s.line.txOff := by
    rcases h with h | h
    · simp [show ¬ 16 ≤ s.line.clashRun + 1 by omega]
    · simp [h]
  simp only [State.clashCounted, same]
  rfl

/-- TX_OFF becomes live (R7): a SETTLING node has no announce left to make, LINE_FAULT is raised in a pass
(R115), and the arm conditions and the closing of the roster are judged (R92, R22). -/
def State.txOffTaken (s : State) : State :=
  ((s.onRoster fun r => { r with
    schedule := if r.phase = .settling then .done else r.schedule }).raiseLineFault.judgeArm).closeIfQuiet

theorem LineKept.txOffTaken (s : State) : LineKept s s.txOffTaken :=
  ((((onRoster _ s).trans (closed.raiseLineFault _)).trans (closed.judgeArm _))).trans (closed.closeIfQuiet _)

theorem Calm.after_schedule (s : State) : Calm (s.onRoster fun r => { r with
    schedule := if r.phase = .settling then .done else r.schedule }) s.txOffTaken :=
  ((closed.raiseLineFault _).trans (closed.judgeArm _)).trans (closed.closeIfQuiet _)

theorem Calm.txOffTaken (s : State) : Calm s s.txOffTaken :=
  (onRoster s fun h => by simp [h]).trans (after_schedule s)

/-- The 16th clash in a row makes TX_OFF live, with what R115, R92 and R22 make of it. -/
theorem State.countClash_eq (s : State) : s.countClash =
    if 16 ≤ s.line.clashRun + 1 ∧ s.line.txOff = false then
      s.clashCounted.txOffTaken else s.clashCounted := by
  have sixteen : 16 ≤ min 16 (s.line.clashRun + 1) ↔ 16 ≤ s.line.clashRun + 1 := by omega
  simp only [State.countClash, State.count_eq, sixteen]
  by_cases h : 16 ≤ s.line.clashRun + 1 <;> cases hx : s.line.txOff <;>
    simp [h, hx, State.clashCounted, State.count_eq, State.onLine, State.txOffTaken]

/-- Closing the roster offers no HALT of the node's own. -/
theorem State.closeIfQuiet_ownHalt {s : State} (h : s.engine.halt.ownHalt = none) :
    s.closeIfQuiet.engine.halt.ownHalt = none := by
  have told {n : Nat} {t u : State} (k : Tells n t u) (ht : t.engine.halt.ownHalt = none) :
      u.engine.halt.ownHalt = none := by rwa [k.fixed]
  have resumed {t : State} (ht : t.engine.halt.ownHalt = none) :
      t.enterResume.engine.halt.ownHalt = none := by
    unfold State.enterResume
    split
    · exact told (.enterNode ..) ht
    · exact told (.enterNode ..) ht
    · exact told (.enterNode ..) ht
  unfold State.closeIfQuiet State.closeRoster
  dsimp only
  split
  · split
    · exact told (.offerNew (by decide) (by simp [TxOwner.silent]) ..) (resumed h)
    · have excluded := told (.enterNode .excluded (s.onRoster fun r =>
        { r with phase := .closed, schedule := .done })) h
      exact (Flushed.emptyTx (fun _ => false) _).ownHalt excluded
  · exact h

/-- Outside a pass TX_OFF leaves no own HALT on its way where none was. -/
theorem State.txOffTaken_ownHalt {s : State} (hp : s.engine.nodeState.inPass = false)
    (h : s.engine.halt.ownHalt = none) : s.txOffTaken.engine.halt.ownHalt = none := by
  refine State.closeIfQuiet_ownHalt ?_
  rw [State.raiseLineFault, if_neg (by simp [hp]), (Tells.judgeArm _).fixed]
  exact h

end Sys2Proof.Machine

open Sys2Proof Sys2Proof.Machine

/-- Settles O16: the held line is `State.lineHeld`; what is raised and judged after it keeps the line
(`LineKept.closed`) and the rest (`Calm.closed`), and offers two telegrams at most (`Seats.lineFault`). -/
theorem stuckLineHoldsTheQueue : Obligations.StuckLineHoldsTheQueue := by
  unfold Obligations.StuckLineHoldsTheQueue
  intro t s hone
  refine ⟨_, exec_lineStuck t s, ?_⟩
  have line := s.lineHeld_line t
  have blocks := s.lineHeld_blocks t
  have queue : (s.lineHeld t).line.txQueue =
      (s.line.txQueue.filter TxEntry.waitsOn).map fun e => { e with sending := false } := by
    rw [State.lineHeld_eq]
    refine State.loseAttempt_queue (s := s.stuckBit t) ?_
    show s.line.txQueue.countP TxEntry.sending ≤ 1
    rw [hone]
    split <;> decide
  have stuck : (s.lineHeld t).line.lineStuck = true := by rw [line]
  have node : (s.lineHeld t).engine.nodeState = s.engine.nodeState := by rw [blocks]
  have sup : (s.lineHeld t).sup = s.sup := by rw [blocks]
  generalize s.lineHeld t = v at *
  -- what R115 and R92 make of the held line
  have kept : LineKept v (if s.line.lineStuck then v else v.raiseLineFault.judgeArm) :=
    RaiseClosed.of_ite (fun _ => .refl v) fun _ =>
      (LineKept.closed.raiseLineFault v).trans (LineKept.closed.judgeArm _)
  have calm : Calm v (if s.line.lineStuck then v else v.raiseLineFault.judgeArm) :=
    RaiseClosed.of_ite (fun _ => .refl v) fun _ =>
      (Calm.closed.raiseLineFault v).trans (Calm.closed.judgeArm _)
  have seats : Seats 2 v (if s.line.lineStuck then v else v.raiseLineFault.judgeArm) :=
    RaiseClosed.of_ite (fun _ => .of_line rfl) fun _ => .lineFault v
  have waiting : ∀ e ∈ v.line.txQueue, e.sending = false := by
    intro e he
    obtain ⟨x, -, rfl⟩ := List.mem_map.1 (queue ▸ he)
    rfl
  refine ⟨?_, ?_, ?_, ?_, ?_, ?_, fun h => ?_, fun hl e he hs ho => ?_, ?_, ?_, fun hp hl => ?_,
    fun hl => ?_, ?_, ?_⟩
  · rw [kept.fixed, line]
  · rw [kept.fixed, line]
  · rw [kept.fixed, line]
  · rw [kept.fixed, line]
  · rw [kept.fixed, line]
  · have none := kept.sending.trans (List.countP_eq_zero.2 (by simpa using waiting))
    simpa using List.countP_eq_zero.1 none
  · refine Eq.trans ?_ queue
    split
    next => rfl
    next hl => rw [State.lineFault_unjudged stuck (by rw [node]; exact h.resolve_left hl)]
  · refine seats.stays ?_ e ?_ ho
    · have : v.line.txQueue.length ≤ s.line.txQueue.length := by
        rw [queue, List.length_map]
        exact List.length_filter_le ..
      omega
    · rw [queue]
      exact List.mem_map.2 ⟨e, List.mem_filter.2 ⟨he, by simp [TxEntry.waitsOn, hs]⟩, by rw [← hs]⟩
  · rw [← sup]
    exact calm.counters 2 (by decide)
  · rw [← sup]
    exact calm.counters 3 (by decide)
  · rw [if_neg (by simp [hl])]
    exact (Calm.closed.judgeArm _).latchedCause (Calm.lineFault_of_inPass (by rw [node]; exact hp))
  · rw [if_pos hl, blocks]
    exact ⟨rfl, rfl, rfl⟩
  · rw [calm.pool, blocks]
  · rw [calm.levels, blocks]

/-- Settles O19: the outcome and the counts are `State.clashCounted`; what TX_OFF brings at the 16th keeps the
line (`LineKept.closed`) and the rest (`Calm.closed`). -/
theorem clashDropsAndCounts : Obligations.ClashDropsAndCounts := by
  unfold Obligations.ClashDropsAndCounts
  intro t s before behind e hs ha
  refine ⟨_, exec_clash hs ha t, ?_⟩
  rw [State.countClash_eq, State.clashCounted_outcome]
  have run : ((((s.clashed t).withQueue (before ++ behind)).outcome e.owner false).line.clashRun) =
      s.line.clashRun := by rw [State.outcome_line]; rfl
  have off : ((((s.clashed t).withQueue (before ++ behind)).outcome e.owner false).line.txOff) =
      s.line.txOff := by rw [State.outcome_line]; rfl
  rw [run, off]
  -- the clash counted and its outcome taken, with nothing raised yet
  have line := State.outcome_line ((s.clashed t).withQueue (before ++ behind)).clashCounted e.owner false
  have sup := State.outcome_sup ((s.clashed t).withQueue (before ++ behind)).clashCounted e.owner false
  have engine := State.outcome_engine ((s.clashed t).withQueue (before ++ behind)).clashCounted e.owner false
  have phase : (((s.clashed t).withQueue
      (before ++ behind)).clashCounted.outcome e.owner false).roster.phase = s.roster.phase := by rw [(Flushed.outcome ..).fixed]; rfl
  have taken := State.outcomeTaken_outcome e.owner false
    ((s.clashed t).withQueue (before ++ behind)).clashCounted
  generalize ((s.clashed t).withQueue (before ++ behind)).clashCounted.outcome e.owner false = v at *
  have kept : LineKept v
      (if 16 ≤ s.line.clashRun + 1 ∧ s.line.txOff = false then v.txOffTaken else v) :=
    RaiseClosed.of_ite (fun _ => .txOffTaken v) fun _ => .refl v
  have calm : Calm v
      (if 16 ≤ s.line.clashRun + 1 ∧ s.line.txOff = false then v.txOffTaken else v) :=
    RaiseClosed.of_ite (fun _ => .txOffTaken v) fun _ => .refl v
  refine ⟨?_, ?_, ?_, ?_, ?_, fun h => ?_, fun h => ?_, fun h => ?_, fun h hp => ?_, fun hr ho hp => ?_,
    fun hr ho hp => ?_⟩
  · rw [kept.fixed, line]; rfl
  · rw [kept.fixed, line]; rfl
  · refine (calm.counters 5 (by decide)).trans ?_
    rw [sup]
    simp [State.clashCounted, State.count_eq, Counter.idx, State.withQueue, State.clashed,
      Supervision.counter]
  · rw [kept.fixed, line]; rfl
  · rw [kept.fixed, line]; rfl
  · rw [if_neg (by rintro ⟨h16, ho⟩; simp [ho] at h; omega)]
    rw [State.clashCounted_below (s := (s.clashed t).withQueue (before ++ behind)) h] at taken
    exact taken
  · exact calm.flushDue (by rw [line]; simp [h])
  · exact calm.reopenDue (by rw [line]; simp [h])
  · have none : v.engine.halt.ownHalt = none := by rw [engine]; simp [h]
    have pass : v.engine.nodeState.inPass = false := by rw [engine]; exact hp
    split
    · exact State.txOffTaken_ownHalt pass none
    · exact none
  · rw [if_pos ⟨hr, ho⟩]
    refine ((Calm.closed.judgeArm _).trans (Calm.closed.closeIfQuiet _)).latchedCause
      (Calm.lineFault_of_inPass ?_)
    show v.engine.nodeState.inPass = true
    rw [engine]
    exact hp
  · rw [if_pos ⟨hr, ho⟩]
    exact (Calm.after_schedule v).done (by simp [phase, hp])

end

section
/-! PROOFS. A received HALT (R14, R105, R120, R121; O47). -/

namespace Sys2Proof.Machine

/-! ## The clock's exits at a change of node state (R43, R44) -/

/-- A change to the node state `ns` takes the clock out of COASTING or LOCAL. -/
def State.clockLeaves (ns : NodeState) (s : State) : Prop :=
  s.clock.state = .coasting ∧ ns.inPass = false ∨
    s.clock.state = .localMarks ∧ ns.holdsLocal = false ∧ s.localHolds = false

theorem State.nodeBecomes_clock (ns : NodeState) (s : State) :
    (s.clockLeaves ns → (s.nodeBecomes ns).clock.state = .free) ∧
    (¬ s.clockLeaves ns → (s.nodeBecomes ns).clock = s.clock) := by
  -- the change and the cue lines' rest leave the clock and what LOCAL asks for
  have exit (t : State) (hc : t.clock = s.clock) (hn : t.engine.nodeState = ns)
      (hl : t.localHolds = s.localHolds) :
      (s.clockLeaves ns → t.clockExit.clock.state = .free) ∧ 
        (¬ s.clockLeaves ns → t.clockExit.clock = s.clock) := by
    unfold State.clockLeaves State.clockExit State.localStays
    rw [← hc, hn, hl]
    cases t.clock.state <;> cases ns.inPass <;> cases ns.holdsLocal <;> cases s.localHolds <;>
      simp [State.enterFree, State.endPulses]
  unfold State.nodeBecomes
  dsimp only
  split <;> exact exit _ rfl rfl rfl

theorem State.enterNode_clock (ns : NodeState) (s : State) :
    (s.enterNode ns).clock = (s.nodeBecomes ns).clock := by
  rw [State.enterNode_eq]
  split <;> simp

/-- With a clock in FREE the fourth arm condition fails. -/
theorem State.armHolds_of_free {s : State} (h : s.clock.state = .free) : s.armHolds = false := by
  simp [State.armHolds, h]

/-- The node that comes back to ARMED is IDLE where its clock leaves COASTING or LOCAL with it (R105, R44). -/
theorem State.backToArmed_nodeState (s : State) :
    (s.clockLeaves .armed → s.backToArmed.engine.nodeState = .idle) ∧
    (¬ s.clockLeaves .armed → s.backToArmed.engine.nodeState = .armed) := by
  obtain ⟨leaves, stays⟩ := s.nodeBecomes_clock .armed
  unfold State.backToArmed
  refine ⟨fun h => ?_, fun h => ?_⟩
  · have free : (s.enterNode .armed).clock.state = .free := by rw [State.enterNode_clock, leaves h]
    have moved : (s.enterNode .armed).clock.state ≠ s.clock.state := by
      rw [free]
      rcases h with ⟨h, -⟩ | ⟨h, -⟩ <;> simp [h]
    simp [moved, State.judgeArm, State.armHolds_of_free free]
  · simp [State.enterNode_clock, stays h]

theorem Tells.backToArmed (s : State) : Tells 3 s s.backToArmed := by
  have entered := Tells.enterNode .armed s
  exact RaiseClosed.of_ite (fun _ => entered.mono (by decide)) fun _ => entered.trans (.judgeArm _)

/-! ## The own HALT cancelled (R14) -/

/-- A cancellation reaches the queue, and by the outcome of a waiting HALT the own-HALT item. -/
theorem State.cancelHalt_flushed (s : State) : ∃ q, Flushed (s.withQueue q) s.cancelHalt := by
  unfold State.cancelHalt
  dsimp only
  split
  · exact ⟨_, .refl s⟩
  · split
    · exact ⟨_, .refl _⟩
    · exact ⟨_, .outcome ..⟩

section
variable {s : State} {before behind : List TxEntry} {e : TxEntry}
  (hq : s.line.txQueue = before ++ e :: behind) (hb : ∀ x ∈ before, x.owner ≠ .halt true)
  (ho : e.owner = .halt true)
include hq hb ho

theorem find?_ownHalt : s.line.txQueue.find? (fun e => e.owner == .halt true) = some e := by
  rw [hq]
  exact List.find?_eq_some_iff_append.2 ⟨by simp [ho], before, behind, rfl, fun x hx => by simp [hb x hx]⟩

/-- A HALT in transmission is marked. -/
theorem State.cancelHalt_of_sending (h : e.sending = true) :
    s.cancelHalt = s.withQueue (before ++ { e with cancelled := true } :: behind) := by
  unfold State.cancelHalt
  dsimp only
  rw [find?_ownHalt hq hb ho]
  dsimp only
  rw [if_pos h, State.onLine, hq, updateFirst_append (fun x hx => by simp [hb x hx]) (by simp [ho])]
  rfl

/-- A HALT that waits leaves the queue. -/
theorem State.cancelHalt_of_waiting (h : e.sending = false) :
    s.cancelHalt = (s.withQueue (before ++ behind)).outcome (.halt true) false := by
  unfold State.cancelHalt
  dsimp only
  rw [find?_ownHalt hq hb ho]
  dsimp only
  rw [if_neg (by simp [h]), ho, State.onLine, hq,
    List.eraseP_append_right _ (fun x hx => by simp [hb x hx]), List.eraseP_cons_of_pos (by simp [ho])]
  rfl

end

/-! ## The minimum rule (R120) -/

namespace HaltRecord
variable {h : HaltRecord} {last ramp : Nat}

/-- A ramp start held that is no later stands. -/
theorem take_of_earlier {r : Nat} (hr : h.rampStart = some r) (hle : r ≤ ramp) (cause : HaltCause) :
    h.take last ramp cause = h := by
  simp [take, hr, hle]

theorem any_le_eq_false (hr : ∀ r, h.rampStart = some r → ramp < r) : h.rampStart.any (· ≤ ramp) = false := by
  cases hs : h.rampStart with
  | none => rfl
  | some r => simpa using hr r hs

/-- An earlier ramp start that is still to come is taken. -/
theorem take_of_ahead (hr : ∀ r, h.rampStart = some r → ramp < r) (hl : last ≤ ramp) (cause : HaltCause) :
    h.take last ramp cause = { h with rampStart := some ramp, cause := some cause } := by
  simp [take, any_le_eq_false hr, hl]

/-- A late one becomes the last tick taken. -/
theorem take_of_late (hr : ∀ r, h.rampStart = some r → ramp < r) (hl : ramp < last) (cause : HaltCause) :
    h.take last ramp cause = { h with rampStart := some last, cause := some cause, late := true } := by
  simp [take, any_le_eq_false hr, hl]

@[simp] theorem take_ownHalt (cause : HaltCause) : (h.take last ramp cause).ownHalt = h.ownHalt := by
  unfold take
  split_ifs <;> rfl

end HaltRecord

/-- The halt record taken and HALT_LATE latched, before any cancellation. -/
def State.haltTaken (ramp : Nat) (cause : HaltCause) (s : State) : State :=
  let t := s.onEngine fun e => { e with halt := e.halt.take e.tick ramp cause }
  if s.engine.halt.isLate s.engine.tick ramp then t.note .haltLate else t

theorem State.haltRunning_eq (ramp : Nat) (cause : HaltCause) (s : State) : s.haltRunning ramp cause =
    if s.engine.halt.ownHalt.any (ramp ≤ ·) then (s.haltTaken ramp cause).cancelHalt
    else s.haltTaken ramp cause := by
  have own : (s.haltTaken ramp cause).engine.halt.ownHalt = s.engine.halt.ownHalt := by
    unfold State.haltTaken
    dsimp only
    split <;> exact HaltRecord.take_ownHalt _
  rw [← own]
  rfl

theorem State.haltTaken_eq (ramp : Nat) (cause : HaltCause) (s : State) : s.haltTaken ramp cause = { s with
    engine := { s.engine with halt := s.engine.halt.take s.engine.tick ramp cause }
    sup := { s.sup with notes := if s.engine.halt.isLate s.engine.tick ramp
      then s.sup.notes.set 2 true else s.sup.notes } } := by
  unfold State.haltTaken
  dsimp only
  split <;> rfl

/-- An applied HALT leaves the engine but for its halt record, and of the rest the queue and the latches. -/
theorem State.haltRunning_fixed (ramp : Nat) (cause : HaltCause) (s : State) :
    let u := s.haltRunning ramp cause
    u.engine = { s.engine with halt :=
      { s.engine.halt.take s.engine.tick ramp cause with ownHalt := u.engine.halt.ownHalt } } ∧
    u.sup = (s.haltTaken ramp cause).sup ∧ u.axes = s.axes := by
  have taken := s.haltTaken_eq ramp cause
  dsimp only
  rw [State.haltRunning_eq]
  split
  · obtain ⟨q, h⟩ := (s.haltTaken ramp cause).cancelHalt_flushed
    have fixed := h.fixed
    generalize (s.haltTaken ramp cause).cancelHalt = v at fixed
    refine ⟨?_, ?_, ?_⟩ <;> rw [fixed]
    · rw [taken]
      rfl
    · rfl
    · rw [taken]
      rfl
  · rw [taken]
    exact ⟨rfl, rfl, rfl⟩

/-- An applied HALT latches what was latched, and HALT_LATE where it comes late. -/
theorem State.haltRunning_sup (ramp : Nat) (cause : HaltCause) (s : State) :
    (s.haltRunning ramp cause).sup.latched = s.sup.latched ∧
    (s.engine.halt.isLate s.engine.tick ramp = true → (s.haltRunning ramp cause).sup.notes[2] = true) := by
  obtain ⟨-, sup, -⟩ := s.haltRunning_fixed ramp cause
  rw [sup, State.haltTaken_eq]
  exact ⟨rfl, fun h => by simp [h]⟩

/-- An own HALT for an earlier ramp start stays on its way. -/
theorem State.haltRunning_of_own_earlier {ramp : Nat} {s : State}
    (h : ∀ o, s.engine.halt.ownHalt = some o → o < ramp) (cause : HaltCause) :
    s.haltRunning ramp cause = s.haltTaken ramp cause := by
  rw [State.haltRunning_eq, if_neg]
  cases ho : s.engine.halt.ownHalt with
  | none => simp
  | some o => simpa using h o ho

/-- R14: one for no earlier ramp start is cancelled. -/
theorem State.haltRunning_of_own_later {ramp o : Nat} {s : State} (ho : s.engine.halt.ownHalt = some o)
    (hr : ramp ≤ o) (cause : HaltCause) :
    s.haltRunning ramp cause = (s.haltTaken ramp cause).cancelHalt := by
  rw [State.haltRunning_eq, if_pos]
  simp [ho, hr]

/-- R121: in HALTING a HALT for an earlier ramp start is late, and any other changes nothing. -/
theorem State.haltHalting_eq (ramp : Nat) (s : State) : s.haltHalting ramp =
    if ∃ h, s.engine.halt.rampStart = some h ∧ ramp < h then { s with
      engine := { s.engine with halt := { s.engine.halt with late := true } }
      sup := { s.sup with notes := s.sup.notes.set 2 true } }
    else s := by
  unfold State.haltHalting
  cases hr : s.engine.halt.rampStart with
  | none => simp
  | some r => by_cases h : ramp < r <;> simp [h, State.note, State.onEngine, State.onSup, Note.idx]

/-! ## HALT by node state -/

/-- The latch of the received HALT (R187). -/
def State.remoteHalted (station : Nat) (s : State) : State := s.latch .remoteHalt none (some station)

theorem State.remoteHalted_notes (station : Nat) (s : State) :
    (s.remoteHalted station).sup.notes = s.sup.notes := by
  simp only [State.remoteHalted, State.latch, State.onSup, Supervision.latch, Supervision.addOrigin]
  split
  · split <;> rfl
  · rfl

theorem State.remoteHalted_latched (station : Nat) (s : State) :
    (s.remoteHalted station).latchedCause .remoteHalt = true := State.latchedCause_latch ..

/-- R120, R121: a HALT that does not name the node's pass, or that finds the node outside it, is ignored. -/
theorem State.takeHalt_ignored {f : Nat} {s : State}
    (h : s.names f = false ∨ s.engine.nodeState ∉ [NodeState.pending, .running, .halting])
    (station ramp : Nat) (code : Byte) : s.takeHalt station f ramp code = s := by
  unfold State.takeHalt
  split
  · split <;> simp_all
  · rfl

section
variable {f : Nat} {s : State} (hn : s.names f = true) (station ramp : Nat) (code : Byte)
include hn

theorem State.takeHalt_pending (h : s.engine.nodeState = .pending) :
    s.takeHalt station f ramp code = (s.remoteHalted station).backToArmed := by
  simp [State.takeHalt, hn, h, State.remoteHalted]

theorem State.takeHalt_running (h : s.engine.nodeState = .running) :
    s.takeHalt station f ramp code = (s.remoteHalted station).haltRunning ramp ⟨code, station⟩ := by
  simp [State.takeHalt, hn, h, State.remoteHalted]

theorem State.takeHalt_halting (h : s.engine.nodeState = .halting) :
    s.takeHalt station f ramp code = (s.remoteHalted station).haltHalting ramp := by
  simp [State.takeHalt, hn, h, State.remoteHalted]

end

/-- A HALT that is not generic, read whole. -/
theorem exec_halt {s : State} {p : List Byte} (hs : s.line.state = .receiving) (hp : p.length = 8)
    (hf : fieldAt p 0 3 ≠ 16777215) (t : Nat) (station : BitVec 5) : exec (.halt t station p) s =
      .next ((s.received t).takeHalt station.toNat (frame20At p 0) (fieldAt p 3 4)
        (BitVec.ofNat 8 (byteAt p 7))) := by
  refine congrArg Host.Outcome.next ((State.arrive_of_receiving hs t _).trans ?_)
  rw [State.ifLength_of_eq hp, State.takeHaltTelegram, Config.genericF, if_neg hf]

end Sys2Proof.Machine

open Sys2Proof Sys2Proof.Machine

/-- Settles O47: by node state, `State.backToArmed`, the minimum rule of `HaltRecord.take` with the
cancellation, and `State.haltHalting`. -/
theorem haltTakesTheEarliestRamp : Obligations.HaltTakesTheEarliestRamp := by
  unfold Obligations.HaltTakesTheEarliestRamp
  intro t station p pass s hs hp hpass hf
  rw [exec_halt hs hp hf]
  have names : (s.received t).names (frame20At p 0) = true ↔ pass.startFrame = fieldAt p 0 3 % 2 ^ 20 := by
    simp [State.names, State.received, State.passStart, hpass, frame20At]
  refine ⟨fun h => ?_, fun hn hst => ?_, fun hn hst => ?_, fun hn hst => ?_⟩
  · rw [State.takeHalt_ignored (s := s.received t)]
    exact h.imp (fun hn => Bool.eq_false_iff.2 (mt names.1 hn)) id
  · rw [State.takeHalt_pending (names.2 hn) _ _ _ hst]
    have back := ((s.received t).remoteHalted station.toNat).backToArmed_nodeState
    have told := Tells.backToArmed ((s.received t).remoteHalted station.toNat)
    refine ⟨_, rfl, ?_, ?_, ?_⟩
    · exact (Calm.closed.backToArmed _).latchedCause (State.remoteHalted_latched ..)
    · rw [told.fixed]
      rfl
    · have leaves : ((s.received t).remoteHalted station.toNat).clockLeaves .armed ↔
          s.clock.state = .coasting ∨ s.clock.state = .localMarks ∧ (s.received t).localHolds = false := by
        simp [State.clockLeaves, NodeState.inPass, NodeState.holdsLocal]
        rfl
      split
      next h => exact back.1 (leaves.2 h)
      next h => exact back.2 (mt leaves.1 h)
  · rw [State.takeHalt_running (names.2 hn) _ _ _ hst]
    -- the latched state: its engine, queue, axes are those before the HALT
    have latched := State.remoteHalted_latched station.toNat (s.received t)
    have engine : ((s.received t).remoteHalted station.toNat).engine = s.engine := rfl
    have queue : ((s.received t).remoteHalted station.toNat).line.txQueue = s.line.txQueue := rfl
    have axes : ((s.received t).remoteHalted station.toNat).axes = s.axes := rfl
    generalize (s.received t).remoteHalted station.toNat = v at *
    obtain ⟨fixed, sup, haxes⟩ := v.haltRunning_fixed (fieldAt p 3 4)
      ⟨BitVec.ofNat 8 (byteAt p 7), station.toNat⟩
    obtain ⟨hlatched, late⟩ := v.haltRunning_sup (fieldAt p 3 4)
      ⟨BitVec.ofNat 8 (byteAt p 7), station.toNat⟩
    rw [engine] at fixed late
    have halt := congrArg Engine.halt fixed
    refine ⟨_, rfl, ?_, ?_, ?_, haxes.trans axes, fun h hh hle => ?_, fun hr hl => ?_, fun hr hl => ?_,
      fun ho => ?_, fun o before behind e ho hr hq hb he => ?_⟩
    · rw [State.latchedCause, hlatched]
      exact latched
    · rw [fixed]
      exact hst
    · rw [fixed]
    · exact halt.trans (by rw [HaltRecord.take_of_earlier hh hle])
    · exact halt.trans (by rw [HaltRecord.take_of_ahead hr hl])
    · exact ⟨late (by simp [HaltRecord.isLate, HaltRecord.any_le_eq_false hr, hl]),
        halt.trans (by rw [HaltRecord.take_of_late hr hl])⟩
    · rw [State.haltRunning_of_own_earlier (engine ▸ ho), State.haltTaken_eq]
      exact ⟨queue, by rw [engine, HaltRecord.take_ownHalt]⟩
    · rw [State.haltRunning_of_own_later (engine ▸ ho) hr]
      have queue : (v.haltTaken (fieldAt p 3 4) ⟨BitVec.ofNat 8 (byteAt p 7), station.toNat⟩).line.txQueue =
          before ++ e :: behind := by rw [State.haltTaken_eq, ← hq]; exact queue
      refine ⟨fun hw => ?_, fun hw => ?_⟩
      · rw [State.cancelHalt_of_waiting queue hb he hw]
        exact ⟨rfl, rfl⟩
      · rw [State.cancelHalt_of_sending queue hb he hw]
        rfl
  · rw [State.takeHalt_halting (names.2 hn) _ _ _ hst, State.haltHalting_eq]
    have latched := State.remoteHalted_latched station.toNat (s.received t)
    have notes := State.remoteHalted_notes station.toNat (s.received t)
    have engine : ((s.received t).remoteHalted station.toNat).engine = s.engine := rfl
    have queue : ((s.received t).remoteHalted station.toNat).line.txQueue = s.line.txQueue := rfl
    have axes : ((s.received t).remoteHalted station.toNat).axes = s.axes := rfl
    generalize (s.received t).remoteHalted station.toNat = v at *
    rw [engine]
    by_cases hl : ∃ h, s.engine.halt.rampStart = some h ∧ fieldAt p 3 4 < h
    · rw [if_pos hl]
      refine ⟨_, rfl, latched, hst, rfl, by simp [hl], fun h _ _ => by simp, fun h hh hle => ?_, axes, queue⟩
      obtain ⟨r, hr, hlt⟩ := hl
      rw [hh, Option.some.injEq] at hr
      omega
    · rw [if_neg hl]
      refine ⟨_, rfl, latched, by rw [engine, hst], by rw [engine], by simp [engine, hl], fun h hh hlt =>
        absurd ⟨h, hh, hlt⟩ hl, fun h _ _ => ⟨engine, notes⟩, axes, queue⟩

end

section
/-! PROOFS. The arm conditions (R91): the model's check and the six conditions of the statements say the same,
and what an arm judgement makes of them (R92). -/

namespace Sys2Proof.Machine

/-! ## The check over every axis -/

theorem mem_axisOrder (a : Fin 4) : a ∈ axisOrder := by
  fin_cases a <;> simp [axisOrder]

theorem axisOrder_all {p : Fin 4 → Bool} : axisOrder.all p = true ↔ ∀ a, p a = true := by
  simp [List.all_eq_true, mem_axisOrder]

theorem axisOrder_any_eq_false {p : Fin 4 → Bool} : axisOrder.any p = false ↔ ∀ a, p a = false := by
  simp [List.any_eq_false, mem_axisOrder]

/-! ## The six conditions -/

/-- Condition 3. -/
theorem State.axesAtStart_iff {s : State} (hv : s.store.phase = .valid) (scale : Nat) :
    s.axesAtStart scale = true ↔ ∀ a : Fin 4, s.store.header.map (fun h => h.enables[a.val]) = some true →
      ∃ ev, s.store.evalAxis 0 scale a = some ev ∧ s.axes[a].commanded.toInt = ev.target := by
  rw [State.axesAtStart, axisOrder_all]
  refine forall_congr' fun a => ?_
  have plays : s.store.axisPlays a = true ↔ s.store.header.map (fun h => h.enables[a.val]) = some true := by
    simp [MoveStore.axisPlays, hv, trackEnable]
  rw [← plays]
  cases s.store.axisPlays a <;> cases s.store.evalAxis 0 scale a <;> simp

/-- R184: an input under its sensitivity. -/
theorem ProtectionInput.inForce_eq_false {sens : Sensitivity} {i : ProtectionInput} :
    i.inForce sens = false ↔ (sens = .edgeLevel → i.low = false) ∧ (sens = .edge → i.latch = false) := by
  cases sens <;> simp [ProtectionInput.inForce]

/-- Condition 6. -/
theorem State.blocked_eq_false {s : State} : s.blocked = false ↔ s.sup.estopLow = false ∧
    (∀ (a : Fin 4) (side : LimitEnd),
      (s.sup.setup.limitSens = .edgeLevel → (s.sup.limit a side).low = false) ∧
      (s.sup.setup.limitSens = .edge → (s.sup.limit a side).latch = false)) ∧
    (∀ a : Fin 4,
      (s.sup.setup.driveSens = .edgeLevel → s.sup.drive[a].low = false) ∧
      (s.sup.setup.driveSens = .edge → s.sup.drive[a].latch = false)) ∧
    s.line.txOff = false ∧ s.line.lineStuck = false ∧ s.sup.supply.live = false := by
  have limits : s.sup.anyLimitInForce = false ↔ ∀ (a : Fin 4) (side : LimitEnd),
      (s.sup.setup.limitSens = .edgeLevel → (s.sup.limit a side).low = false) ∧
      (s.sup.setup.limitSens = .edge → (s.sup.limit a side).latch = false) := by
    rw [Supervision.anyLimitInForce, axisOrder_any_eq_false]
    refine forall_congr' fun a => ?_
    rw [Bool.or_eq_false_iff]
    refine ⟨fun ⟨hmin, hmax⟩ side => ?_, fun h => ⟨?_, ?_⟩⟩
    · cases side
      · exact ProtectionInput.inForce_eq_false.1 hmin
      · exact ProtectionInput.inForce_eq_false.1 hmax
    · exact ProtectionInput.inForce_eq_false.2 (h .min)
    · exact ProtectionInput.inForce_eq_false.2 (h .max)
  have drives : axisOrder.any s.sup.driveInForce = false ↔ ∀ a : Fin 4,
      (s.sup.setup.driveSens = .edgeLevel → s.sup.drive[a].low = false) ∧
      (s.sup.setup.driveSens = .edge → s.sup.drive[a].latch = false) := by
    rw [axisOrder_any_eq_false]
    exact forall_congr' fun a => ProtectionInput.inForce_eq_false
  simp only [State.blocked, Bool.or_eq_false_iff, limits, drives, and_assoc]

/-- Condition 5: a place in a CLOSED roster. -/
theorem Roster.station_isSome {r : Roster} :
    r.station.isSome = true ↔ r.phase = .closed ∧ r.ownPosition ≠ none := by
  unfold Roster.station
  split <;> simp_all [Option.isSome_iff_ne_none]

/-- Condition 4: the clock runs, in LOCAL with LOCAL's own conditions. -/
def State.clockArms (s : State) : Prop :=
  s.clock.state = .locked ∨ s.clock.state = .localMarks ∧ s.localHolds = true

/-- R91: outside PENDING and a pass the model's check is the six conditions. -/
theorem State.armHolds_iff {s : State} (hn : s.engine.nodeState.holdsLocal = false) :
    s.armHolds = true ↔ s.armable := by
  have clock : (s.clock.state == .locked || s.clock.state == .localMarks && s.localStays) = true ↔
      s.clock.state = .locked ∨ s.clock.state = .localMarks ∧ s.localHolds = true := by
    simp [State.localStays, hn]
  have blocked : (!s.blocked) = true ↔ _ := (by simp : (!s.blocked) = true ↔ s.blocked = false).trans
    State.blocked_eq_false
  simp only [State.armHolds, State.armable, Bool.and_eq_true, clock, blocked, Roster.station_isSome,
    beq_iff_eq, Bool.not_eq_true', and_assoc]
  refine and_congr_right fun hv => ?_
  rw [State.axesAtStart_iff hv]

/-! ## What the judgement leaves -/

/-- The conditions are the same before and after telegrams, where the clock's condition is. -/
theorem Tells.armable {n : Nat} {s t : State} (h : Tells n s t) (hc : t.clockArms ↔ s.clockArms) :
    t.armable ↔ s.armable := by
  have clock : (t.clock.state = .locked ∨ t.clock.state = .localMarks ∧ t.localHolds = true) ↔
      (s.clock.state = .locked ∨ s.clock.state = .localMarks ∧ s.localHolds = true) := hc
  unfold State.armable
  rw [clock, h.fixed]
  exact Iff.rfl

/-- R92: an IDLE or ARMED node is ARMED just where the conditions hold. -/
theorem State.judgeArm_nodeState {s : State}
    (h : s.engine.nodeState = .idle ∨ s.engine.nodeState = .armed) :
    s.judgeArm.engine.nodeState = if s.armHolds then .armed else .idle := by
  unfold State.judgeArm
  rcases h with h | h <;> cases ha : s.armHolds <;> simp [h]

theorem State.judgeArm_idle_or_armed {s : State}
    (h : s.engine.nodeState = .idle ∨ s.engine.nodeState = .armed) :
    (s.judgeArm.engine.nodeState = .idle ∨ s.judgeArm.engine.nodeState = .armed) ∧
    (s.judgeArm.engine.nodeState = .armed ↔ s.armable) := by
  have hn : s.engine.nodeState.holdsLocal = false := by rcases h with h | h <;> simp [h, NodeState.holdsLocal]
  rw [State.judgeArm_nodeState h, ← State.armHolds_iff hn]
  cases s.armHolds <;> simp

/-- A change of node state takes out no clock that could arm the node. -/
theorem State.enterNode_clockArms (ns : NodeState) (s : State) :
    (s.enterNode ns).clockArms ↔ s.clockArms := by
  obtain ⟨leaves, stays⟩ := s.nodeBecomes_clock ns
  have told := Tells.enterNode ns s
  by_cases h : s.clockLeaves ns
  · have free : (s.enterNode ns).clock.state = .free := by rw [State.enterNode_clock, leaves h]
    unfold State.clockArms
    rcases h with ⟨h, -⟩ | ⟨h, -, hl⟩
    · simp [free, h]
    · simp [free, h, hl]
  · have clock : (s.enterNode ns).clock = s.clock := by rw [State.enterNode_clock, stays h]
    have holds : (s.enterNode ns).localHolds = s.localHolds := by
      unfold State.localHolds
      rw [clock, told.fixed]
    rw [State.clockArms, clock, holds]
    rfl

end Sys2Proof.Machine
end

section
/-! PROOFS. The requests that bring a node back (R26, R27, R130, R191; O57). -/

namespace Sys2Proof.Machine

/-! ## Handing over a request, and its reply -/

/-- The dispatcher hands the head to the handler of its kind (R16, R65). -/
theorem State.handle_of_hands {kind : Nat} {r : RequestRecord} {rest : List RequestRecord} {s : State}
    (h : s.hands kind r rest) (f : RequestRecord → State → State) :
    s.handle (BitVec.ofNat 4 kind) (fun _ => true) f = f r (s.dispatched rest) := by
  obtain ⟨hq, hkind, hl, hv⟩ := h
  refine State.dispatch_of_head hq ?_ f
  have code : r.kind = BitVec.ofNat 4 kind := by
    rw [← hkind, BitVec.ofNat_toNat, BitVec.setWidth_eq]
  have length : r.lengthDefined = true := by
    simpa [RequestRecord.lengthDefined, RequestRecord.payload, Nat.add_comm] using hl
  simp [code, length, hv]

/-- A reply offered with room waits in the queue. -/
theorem State.offerReply_hasReply {s : State} (hx : s.engine.nodeState ≠ .excluded)
    (hl : s.line.txQueue.length < 8) (r : RequestRecord) (code : ReplyCode) (reason : RefusalReason)
    (content : List Byte) : (s.offerReply r code reason content).hasReply r code.code reason.code := by
  rw [State.offerReply, State.offer_places hx (.inl (by simp [TxEntry.new])) hl]
  exact ⟨_, (placeEntry_perm _ _).mem_iff.2 List.mem_cons_self, rfl, rfl, rfl⟩

theorem Tells.offerReply (r : RequestRecord) (code : ReplyCode) (reason : RefusalReason) (content : List Byte)
    (s : State) : Tells 1 s (s.offerReply r code reason content) :=
  .offerNew (by decide) (by simp [TxOwner.silent]) ..

/-- R26, R191: a reset or a reopening is taken in the states whose work has ended, and in EXCLUDED. -/
theorem NodeState.takesReset_iff {ns : NodeState} : ns.takesReset = true ↔
    ns ∈ [NodeState.idle, .halted, .ended, .stopped] ∨ ns = .excluded := by
  cases ns <;> simp [NodeState.takesReset]

theorem State.judgeArm_ne_excluded {s : State} (h : s.engine.nodeState ≠ .excluded) :
    s.judgeArm.engine.nodeState ≠ .excluded := by
  unfold State.judgeArm
  split
  · split <;> simp [*]
  · split <;> simp [*]
  · split <;> simp [*]
  all_goals exact h

/-! ## CLEAR_FAULT (R130) -/

/-- Steps 1 and 2: the latches of inactive inputs and TX_OFF are cleared. -/
def State.faultsCleared (s : State) : State :=
  (s.onSup Supervision.clearLatches).onLine fun l => { l with txOff := false, clashRun := 0 }

theorem State.handleClearFault_eq (r : RequestRecord) (s : State) : s.handleClearFault r =
    if s.engine.nodeState = .stopped then
      if s.faultsCleared.sup.stopActive then s.faultsCleared.refuse r .inputActive
      else (s.faultsCleared.enterNode .idle).judgeArm.answer r .done
    else s.faultsCleared.judgeArm.answer r .done := rfl

/-- R130, step 3: the ESTOP input or a drive-fault input is active. -/
def State.stopsActive (s : State) : Prop := s.sup.estopLow = true ∨ ∃ a : Fin 4, s.sup.drive[a].low = true

theorem State.stopActive_faultsCleared {s : State} :
    s.faultsCleared.sup.stopActive = true ↔ s.stopsActive := by
  have drive (a : Fin 4) : s.faultsCleared.sup.drive[a].low = s.sup.drive[a].low := by
    simp [State.faultsCleared, Supervision.clearLatches, ProtectionInput.clearLatch]
  simp only [Supervision.stopActive, Bool.or_eq_true, List.any_eq_true, mem_axisOrder, true_and, drive]
  exact Iff.rfl

section
variable {s : State} (r : RequestRecord)

theorem State.handleClearFault_blocked (hs : s.engine.nodeState = .stopped) (ha : s.stopsActive) :
    s.handleClearFault r = s.faultsCleared.refuse r .inputActive := by
  rw [State.handleClearFault_eq, if_pos hs, if_pos (State.stopActive_faultsCleared.2 ha)]

theorem State.handleClearFault_stopped (hs : s.engine.nodeState = .stopped) (ha : ¬ s.stopsActive) :
    s.handleClearFault r = (s.faultsCleared.enterNode .idle).judgeArm.answer r .done := by
  rw [State.handleClearFault_eq, if_pos hs, if_neg (mt State.stopActive_faultsCleared.1 ha)]

theorem State.handleClearFault_other (hs : s.engine.nodeState ≠ .stopped) :
    s.handleClearFault r = s.faultsCleared.judgeArm.answer r .done := by
  rw [State.handleClearFault_eq, if_neg hs]

/-- Three telegrams at most: the entry of IDLE, the judgement's and the reply. -/
theorem Tells.handleClearFault : Tells 3 s.faultsCleared (s.handleClearFault r) := by
  by_cases hs : s.engine.nodeState = .stopped
  · by_cases ha : s.stopsActive
    · rw [State.handleClearFault_blocked r hs ha]
      exact (Tells.offerReply ..).mono (by decide)
    · rw [State.handleClearFault_stopped r hs ha]
      exact ((Tells.enterNode .idle s.faultsCleared).trans (.judgeArm_of_not_pending (by simp))).trans
        (.offerReply ..)
  · rw [State.handleClearFault_other r hs]
    exact (Tells.judgeArm _).trans (.offerReply ..)

@[simp] theorem State.answer_nodeState (code : ReplyCode) :
    (s.answer r code).engine.nodeState = s.engine.nodeState := State.offer_nodeState ..

/-- A node that CLEAR_FAULT lets be judged is IDLE or ARMED by the six conditions. -/
theorem State.handleClearFault_judged (h : s.engine.nodeState = .idle ∨ s.engine.nodeState = .armed ∨
    s.engine.nodeState = .stopped ∧ ¬ s.stopsActive) :
    ((s.handleClearFault r).engine.nodeState = .idle ∨ (s.handleClearFault r).engine.nodeState = .armed) ∧
    ((s.handleClearFault r).engine.nodeState = .armed ↔ s.faultsCleared.armable) := by
  by_cases hs : s.engine.nodeState = .stopped
  · have ha : ¬ s.stopsActive := by simp_all
    have judged := State.judgeArm_idle_or_armed (s := s.faultsCleared.enterNode .idle) (by simp)
    rw [(Tells.enterNode .idle s.faultsCleared).armable (State.enterNode_clockArms ..)] at judged
    rwa [State.handleClearFault_stopped r hs ha, State.answer_nodeState]
  · rw [State.handleClearFault_other r hs, State.answer_nodeState]
    exact State.judgeArm_idle_or_armed (by simp_all [State.faultsCleared])

section
variable (hx : s.engine.nodeState ≠ .excluded) (hl : s.line.txQueue.length < 6)
include hx hl

theorem State.handleClearFault_refused (hs : s.engine.nodeState = .stopped) (ha : s.stopsActive) :
    (s.handleClearFault r).engine = s.engine ∧ (s.handleClearFault r).hasReply r 3 17 := by
  rw [State.handleClearFault_blocked r hs ha]
  have room : s.faultsCleared.line.txQueue.length < 8 := Nat.lt_trans hl (by decide)
  refine ⟨?_, State.offerReply_hasReply (s := s.faultsCleared) hx room r .refused .inputActive []⟩
  rw [State.refuse, State.offerReply,
    State.offer_places (s := s.faultsCleared) hx (.inl (by simp [TxEntry.new])) room]
  rfl

theorem State.handleClearFault_done (h : s.engine.nodeState = .stopped → ¬ s.stopsActive) :
    (s.handleClearFault r).hasReply r 0 0 := by
  have reply {t : State} (told : Tells 2 s.faultsCleared t) (ht : t.engine.nodeState ≠ .excluded) :
      (t.answer r .done).hasReply r 0 0 := by
    refine State.offerReply_hasReply ht ?_ r .done .none []
    have := told.length
    have : s.faultsCleared.line.txQueue.length < 6 := hl
    omega
  by_cases hs : s.engine.nodeState = .stopped
  · rw [State.handleClearFault_stopped r hs (h hs)]
    refine reply ((Tells.enterNode ..).trans (.judgeArm_of_not_pending (by simp))) ?_
    rcases (State.judgeArm_idle_or_armed (s := s.faultsCleared.enterNode .idle) (by simp)).1 with h | h <;>
      simp [h]
  · rw [State.handleClearFault_other r hs]
    exact reply (.judgeArm _) (State.judgeArm_ne_excluded hx)

end

end

/-! ## STATION_RESET (R191) -/

/-- With room a telegram that is no REPORT is taken. -/
theorem State.takes_of_room {e : TxEntry} {s : State} (hx : s.engine.nodeState ≠ .excluded)
    (ho : e.owner ≠ .report) (hl : s.line.txQueue.length < 8) : s.takes e = true := by
  rw [State.takes, judgeOffer_eq hx (.inl ho), if_pos hl]

theorem State.takes_of_excluded {e : TxEntry} {s : State} (hx : s.engine.nodeState = .excluded) :
    s.takes e = false := by
  simp [State.takes, judgeOffer, hx]

/-- Steps 2 to 4 of R191: what is cleared before the arm conditions are judged. -/
def State.stationCleared (s : State) : State :=
  (((s.onSup Supervision.stationReset).onAxes AxisChannel.clearCounts).onEngine fun e => { e with
    nodeState := if e.nodeState = .excluded then .excluded else .idle
    reportStart := s.now, slew := none }).endPulses

theorem State.stationCleared_eq (s : State) : s.stationCleared = { s with
    sup := s.sup.stationReset
    axes := Vector.ofFn fun a => s.axes[a].clearCounts
    engine := { s.engine with
      nodeState := if s.engine.nodeState = .excluded then .excluded else .idle
      reportStart := s.now, slew := none }
    cues := Vector.ofFn fun i => s.cues[i].endPulse } := rfl

theorem State.resetStation_eq (s : State) : s.resetStation = s.stationCleared.judgeArm := rfl

theorem State.stationCleared_armable (s : State) : s.stationCleared.armable ↔ s.armable := by
  have commanded (a : Fin 4) : s.stationCleared.axes[a].commanded = s.axes[a].commanded := by
    simp [State.stationCleared, State.endPulses, AxisChannel.clearCounts]
  unfold State.armable
  simp only [commanded]
  exact Iff.rfl

theorem CueLine.endPulse_of_pulse {l : CueLine} (h : l.pulseEnd ≠ none) : l.endPulse.active = false := by
  simp [CueLine.endPulse, Option.isSome_iff_ne_none.2 h]

/-- What a STATION_RESET taken by a node that is not EXCLUDED makes of `s`, its queues emptied at once or
not. -/
structure StationReset (s t : State) : Prop where
  node : t.engine.nodeState = .idle ∨ t.engine.nodeState = .armed
  armed : t.engine.nodeState = .armed ↔ s.armable
  slew : t.engine.slew = none
  timer : t.engine.reportStart = s.now
  path : t.engine.path = s.engine.path
  passNumber : t.engine.passNumber = s.engine.passNumber
  holdTargets : t.engine.holdTargets = s.engine.holdTargets
  sup : t.sup = s.sup.stationReset
  axes : ∀ a : Fin 4, t.axes[a] = s.axes[a].clearCounts
  now : t.now = s.now
  store : t.store = s.store
  reg : t.reg = s.reg
  levels : t.levels = s.levels
  roll : t.clock.roll = s.clock.roll
  inactive : ∀ i : Fin 8, s.cues[i].pulseEnd ≠ none → t.cues[i].active = false
  replies : ∀ e ∈ s.line.txQueue, e.isResetReply = true → e ∈ t.line.txQueue

theorem owner_ne_report_of_isResetReply {e : TxEntry} (h : e.isResetReply = true) : e.owner ≠ .report :=
  fun ho => by simp [TxEntry.isResetReply, ho] at h

/-- The judgement is the reset's one telegram beside its reply. -/
theorem Tells.resetStation {s : State} (hx : s.engine.nodeState ≠ .excluded) :
    Tells 1 s.stationCleared s.resetStation :=
  .judgeArm_of_not_pending (by simp [State.stationCleared_eq, hx])

/-- The reset itself. -/
theorem StationReset.of_resetStation {s : State} (hx : s.engine.nodeState ≠ .excluded)
    (hl : s.line.txQueue.length < 8) : StationReset s s.resetStation := by
  have idle : s.stationCleared.engine.nodeState = .idle := if_neg hx
  have told := Tells.resetStation hx
  have judged := State.judgeArm_idle_or_armed (.inl idle)
  rw [State.stationCleared_armable, ← State.resetStation_eq] at judged
  have fixed := told.fixed
  rw [State.stationCleared_eq] at fixed
  refine ⟨judged.1, judged.2, by rw [fixed], told.timer.elim id id, by rw [fixed],
    by rw [fixed], by rw [fixed], told.room hl, fun a => ?_, by rw [fixed], by rw [fixed], by rw [fixed], by rw [fixed], told.roll,
    fun i hi => told.inactive i ?_, fun e he hr => told.stays e he (owner_ne_report_of_isResetReply hr)⟩
  · rw [fixed]
    simp
  · simpa [State.stationCleared, State.endPulses] using CueLine.endPulse_of_pulse hi

/-- The emptying after it, with its REPORT. -/
theorem StationReset.resetFlush {s t : State} (h : StationReset s t) (hl : t.line.txQueue.length < 8) :
    StationReset s t.resetFlush := by
  have hset : t.engine.nodeState ≠ .settling := by rcases h.node with hn | hn <;> simp [hn]
  have flush : t.resetFlush = t.queuesEmptied.offerReport := rfl
  have told := Tells.offerReport t.queuesEmptied
  have emptied := t.queuesEmptied_eq
  have queue : t.queuesEmptied.line.txQueue = t.keptQueue TxEntry.isResetReply := State.emptyTx_queue ..
  have short : (t.keptQueue TxEntry.isResetReply).length ≤ t.line.txQueue.length := by
    rw [State.keptQueue, List.length_map]
    exact List.length_filter_le ..
  have node : t.resetFlush.engine.nodeState = t.engine.nodeState := by
    rw [flush, State.offerReport_nodeState, emptied]
  have sup : t.resetFlush.sup = s.sup.stationReset := by
    rw [flush, told.room (by rw [queue]; omega), ← h.sup, emptied]
  have clock : t.resetFlush.clock = t.clock := by rw [flush, State.offerReport_clock, emptied]
  have cues : t.resetFlush.cues = t.cues := by rw [flush, State.offerReport_cues, emptied]
  have now : t.queuesEmptied.now = t.now := by rw [emptied]
  have timer : t.queuesEmptied.engine.reportStart = t.engine.reportStart := by rw [emptied]
  refine ⟨node ▸ h.node, node ▸ h.armed, ?_, ?_, ?_, ?_, ?_, sup, ?_, ?_, ?_, ?_, ?_, clock ▸ h.roll,
    fun i hi => cues ▸ h.inactive i hi, fun e he hr => ?_⟩
  · rw [flush, told.fixed, emptied]; exact h.slew
  · rcases told.timer with ht | ht
    · exact (ht.trans timer).trans h.timer
    · exact (ht.trans now).trans h.now
  · rw [flush, told.fixed, emptied]; exact h.path
  · rw [flush, told.fixed, emptied]; exact h.passNumber
  · rw [flush, told.fixed, emptied]; exact h.holdTargets
  · rw [flush, told.fixed, emptied]; exact h.axes
  · rw [flush, told.fixed, emptied]; exact h.now
  · rw [flush, told.fixed, emptied]; exact h.store
  · rw [flush, told.fixed, emptied]; exact h.reg
  · rw [flush, told.fixed, emptied]; exact h.levels
  · refine told.stays e ?_ (owner_ne_report_of_isResetReply hr)
    rw [queue]
    exact List.mem_map.2 ⟨e, List.mem_filter.2 ⟨h.replies e he hr, by simp [hr]⟩, by simp [hr]⟩

/-- The entry of a STATION_RESET's reply, alike in what `State.hasReply` asks for whether its leaving is
awaited or not. -/
theorem State.hasReply_of_resetReply {s t : State} {r : RequestRecord} {awaited : Bool}
    (h : s.resetReply r awaited ∈ t.line.txQueue) : t.hasReply r 0 0 := ⟨_, h, rfl, rfl, rfl⟩

/-- An EXCLUDED node's reset offers nothing and judges nothing (R15, R191). -/
theorem State.excludedReset_eq {s : State} (hx : s.engine.nodeState = .excluded) :
    s.resetStation.resetFlush = s.stationCleared.queuesEmptied := by
  have excluded : s.stationCleared.engine.nodeState = .excluded := if_pos hx
  have emptied : s.stationCleared.queuesEmptied.engine.nodeState = .excluded := by
    rw [State.queuesEmptied_eq, excluded]
  rw [State.resetStation_eq, State.judgeArm_of_unjudged (by simp [excluded])]
  show s.stationCleared.queuesEmptied.offerReport = _
  rw [State.offerReport, if_pos (.inr emptied)]

section
variable {s : State} (r : RequestRecord) (ht : s.engine.nodeState.takesReset = true)

theorem State.handleStationReset_busy (hn : s.engine.nodeState.takesReset = false) :
    s.handleStationReset r = s.answer r .busy := by
  simp [State.handleStationReset, hn]

theorem State.handleRosterReopen_busy (hn : s.engine.nodeState.takesReset = false) :
    s.handleRosterReopen r = s.answer r .busy := by
  simp [State.handleRosterReopen, hn]

include ht

/-- R15: the emptying awaits the reply's leaving where the reply is taken and TX_OFF is not live. -/
theorem State.handleStationReset_awaited (hx : s.engine.nodeState ≠ .excluded)
    (hl : s.line.txQueue.length < 8) (ho : s.line.txOff = false) : s.handleStationReset r =
      (s.withQueue (placeEntry (s.resetReply r true) s.line.txQueue)).resetStation := by
  have taken : s.takes (s.resetReply r true) = true :=
    State.takes_of_room hx (by simp [State.resetReply, TxEntry.new]) hl
  simp only [State.handleStationReset, ht, taken, ho, not_true_eq_false, if_false, Bool.not_false,
    Bool.and_self, if_true]
  rw [State.offer_places hx (.inl (by simp [State.resetReply, TxEntry.new])) hl]

/-- With no leaving to await the queues are emptied at once. -/
theorem State.handleStationReset_alone (h : s.engine.nodeState = .excluded ∨ s.line.txOff = true) :
    s.handleStationReset r = (s.offer (s.resetReply r false)).resetStation.resetFlush := by
  have alone : (s.takes (s.resetReply r true) && !s.line.txOff) = false := by
    rcases h with h | h
    · simp [State.takes_of_excluded h]
    · simp [h]
  simp [State.handleStationReset, ht, alone]

/-- A STATION_RESET that finds room leaves what `StationReset` says of the state with its reply placed. -/
theorem State.handleStationReset_resets (hx : s.engine.nodeState ≠ .excluded)
    (hl : s.line.txQueue.length < 6) : ∃ awaited,
      StationReset (s.withQueue (placeEntry (s.resetReply r awaited) s.line.txQueue))
        (s.handleStationReset r) ∧
      (s.line.txOff = false → awaited = true ∧
        (s.handleStationReset r).line.requestQueue = s.line.requestQueue ∧
        (s.handleStationReset r).roster = s.roster ∧
        (s.handleStationReset r).engine.halt = s.engine.halt) := by
  have length (awaited : Bool) :
      (s.withQueue (placeEntry (s.resetReply r awaited) s.line.txQueue)).line.txQueue.length + 1 < 8 := by
    simp only [State.withQueue, placeEntry_length]
    omega
  cases ho : s.line.txOff with
  | false =>
    have awaited := State.handleStationReset_awaited r ht hx (hl.trans (by decide)) ho
    have fixed := (Tells.resetStation
      (s := s.withQueue (placeEntry (s.resetReply r true) s.line.txQueue)) hx).fixed
    rw [awaited]
    exact ⟨true, .of_resetStation hx (Nat.lt_of_succ_lt (length true)), fun _ => ⟨rfl,
      by rw [fixed]; rfl, by rw [fixed]; rfl, by rw [fixed]; rfl⟩⟩
  | true =>
    have placed : s.offer (s.resetReply r false) =
        s.withQueue (placeEntry (s.resetReply r false) s.line.txQueue) :=
      State.offer_places hx (.inl (by simp [State.resetReply, TxEntry.new])) (hl.trans (by decide))
    refine ⟨false, ?_, fun h => by cases h⟩
    rw [State.handleStationReset_alone r ht (.inr ho), placed]
    have told := Tells.resetStation (s := s.withQueue (placeEntry (s.resetReply r false) s.line.txQueue)) hx
    have reset := StationReset.of_resetStation
      (s := s.withQueue (placeEntry (s.resetReply r false) s.line.txQueue)) hx
      (Nat.lt_of_succ_lt (length false))
    exact reset.resetFlush (told.length.trans_lt (length false))

theorem State.handleRosterReopen_refused (h : r.target ≠ 31) :
    s.handleRosterReopen r = s.refuse r .notBroadcast := by
  rw [State.handleRosterReopen, if_neg (by simp [ht]), if_pos h]

theorem State.handleRosterReopen_awaited (hr : r.target = 31) (hx : s.engine.nodeState ≠ .excluded)
    (hl : s.line.txQueue.length < 8) (ho : s.line.txOff = false) : s.handleRosterReopen r =
      s.setResume.withQueue (placeEntry (s.reopenReply r true) s.line.txQueue) := by
  have taken : s.takes (s.reopenReply r true) = true :=
    State.takes_of_room hx (by simp [State.reopenReply, TxEntry.new]) hl
  simp only [State.handleRosterReopen, ht, taken, ho, hr, not_true_eq_false, if_false, Bool.not_false,
    Bool.and_self, if_true, ne_eq]
  rw [State.offer_places (s := s.setResume) hx (.inl (by simp [State.reopenReply, TxEntry.new])) hl]
  rfl

theorem State.handleRosterReopen_alone (hr : r.target = 31)
    (h : s.engine.nodeState = .excluded ∨ s.line.txOff = true) :
    s.handleRosterReopen r = (s.setResume.offer (s.reopenReply r false)).reopen := by
  have alone : (s.takes (s.reopenReply r true) && !s.line.txOff) = false := by
    rcases h with h | h
    · simp [State.takes_of_excluded h]
    · simp [h]
  simp [State.handleRosterReopen, ht, hr, alone]

end

end Sys2Proof.Machine

open Sys2Proof Sys2Proof.Machine

/-- Settles O57: the judgement of CLEAR_FAULT is `State.handleClearFault_judged`, a STATION_RESET leaves what
`StationReset` says, and a ROSTER_REOPEN awaits its reply's leaving or reopens at once (`State.reopen_roster`).
In EXCLUDED no reply is taken. -/
theorem recoveryRequestsAct : Obligations.RecoveryRequestsAct := by
  unfold Obligations.RecoveryRequestsAct
  intro s r rest
  have clear (hh : s.hands 1 r rest) : exec .clearFault s = .next ((s.dispatched rest).handleClearFault r) :=
    congrArg Host.Outcome.next (State.handle_of_hands hh _)
  have reset (hh : s.hands 14 r rest) :
      exec .stationReset s = .next ((s.dispatched rest).handleStationReset r) :=
    congrArg Host.Outcome.next (State.handle_of_hands hh _)
  have reopen (hh : s.hands 15 r rest) :
      exec .rosterReopen s = .next ((s.dispatched rest).handleRosterReopen r) :=
    congrArg Host.Outcome.next (State.handle_of_hands hh _)
  have busy (hroom : s.hasRoom) (hn : s.engine.nodeState ∉ [NodeState.idle, .halted, .ended, .stopped]) :
      s.engine.nodeState.takesReset = false := by
    rw [Bool.eq_false_iff, ne_eq, NodeState.takesReset_iff]
    exact not_or.2 ⟨hn, hroom.1⟩
  refine ⟨fun hroom hl => ⟨fun hh => ?_, fun hh => ⟨fun hn => ?_, fun hn => ?_⟩, fun hh => ⟨fun hn => ?_,
    fun hn hr => ?_, fun hn hr ho => ?_, fun hn hr ho => ?_⟩⟩, fun hx => ⟨fun hh => ?_, fun hh => ?_,
    fun hh => ⟨fun hr => ?_, fun hr => ?_⟩⟩⟩
  · have told := Tells.handleClearFault (s := s.dispatched rest) r
    have sup : ((s.dispatched rest).handleClearFault r).sup = s.sup.clearLatches :=
      told.room (Nat.add_le_add_right (Nat.le_of_lt_succ hl) 3)
    refine ⟨_, clear hh, ?_, ?_, ?_, ?_, sup, fun h => ?_, fun hs ha => ?_, fun hs ha => ?_, fun hs => ?_⟩
    · rw [told.fixed]; rfl
    · rw [told.fixed]; rfl
    · rw [told.fixed]; rfl
    · rw [told.fixed]; rfl
    · rw [sup]
      exact State.handleClearFault_judged (s := s.dispatched rest) r h
    · exact State.handleClearFault_refused (s := s.dispatched rest) r hroom.1 hl hs ha
    · have judged := State.handleClearFault_judged (s := s.dispatched rest) r (.inr (.inr ⟨hs, ha⟩))
      refine ⟨State.handleClearFault_done (s := s.dispatched rest) r hroom.1 hl fun _ => ha, judged.1,
        fun hp => ?_⟩
      refine judged.1.resolve_right fun hArmed => ?_
      obtain ⟨-, ⟨onPath, -⟩, -⟩ := judged.2.1 hArmed
      exact absurd (hp.symm.trans onPath) (by decide)
    · exact State.handleClearFault_done (s := s.dispatched rest) r hroom.1 hl fun h => absurd h hs
  · rw [reset hh, State.handleStationReset_busy (s := s.dispatched rest) r (busy hroom hn)]
    exact congrArg Host.Outcome.next (State.offer_reply hroom (by decide) r .busy .none [])
  · have takes : s.engine.nodeState.takesReset = true := NodeState.takesReset_iff.2 (.inl hn)
    obtain ⟨awaited, leaves, alone⟩ :=
      State.handleStationReset_resets (s := s.dispatched rest) r takes hroom.1 hl
    have placed := leaves.replies _ ((placeEntry_perm ..).mem_iff.2 List.mem_cons_self) rfl
    have sup := leaves.sup
    refine ⟨_, reset hh, leaves.node, leaves.slew, leaves.armed, leaves.timer,
      State.hasReply_of_resetReply placed, fun c => ?_, fun k => ?_, by rw [sup]; rfl, by rw [sup]; rfl, by rw [sup]; rfl, by rw [sup]; rfl,
      by rw [sup]; rfl, by rw [sup]; rfl, by rw [sup]; rfl, by rw [sup]; rfl, by rw [sup]; rfl,
      by rw [sup]; rfl, by rw [sup]; rfl, leaves.axes, leaves.inactive, leaves.store, leaves.reg,
      leaves.levels, leaves.path, leaves.passNumber, leaves.holdTargets, leaves.roll, fun ho => ?_⟩
    · rw [sup]
      simp [Supervision.stationReset, Supervision.clearFlags]
    · rw [sup]
      simp [Supervision.stationReset]
    · obtain ⟨rfl, requests, roster, halt⟩ := alone ho
      exact ⟨requests, roster, halt, _, placed, rfl⟩
  · rw [reopen hh, State.handleRosterReopen_busy (s := s.dispatched rest) r (busy hroom hn)]
    exact congrArg Host.Outcome.next (State.offer_reply hroom (by decide) r .busy .none [])
  · have takes : s.engine.nodeState.takesReset = true := NodeState.takesReset_iff.2 (.inl hn)
    rw [reopen hh, State.handleRosterReopen_refused (s := s.dispatched rest) r takes hr]
    exact congrArg Host.Outcome.next (State.offer_reply hroom (by decide) r .refused .notBroadcast [])
  · have takes : s.engine.nodeState.takesReset = true := NodeState.takesReset_iff.2 (.inl hn)
    rw [reopen hh, State.handleRosterReopen_awaited (s := s.dispatched rest) r takes hr hroom.1 hroom.2 ho]
    have placed : (s.dispatched rest).reopenReply r true ∈
        placeEntry ((s.dispatched rest).reopenReply r true) s.line.txQueue :=
      (placeEntry_perm ..).mem_iff.2 List.mem_cons_self
    refine ⟨_, rfl, ?_, ⟨_, placed, rfl, rfl, rfl⟩, _, placed, rfl⟩
    simp [State.setResume, State.withQueue, State.onRoster, State.dispatched, hroom.1]
  · have takes : s.engine.nodeState.takesReset = true := NodeState.takesReset_iff.2 (.inl hn)
    rw [reopen hh, State.handleRosterReopen_alone (s := s.dispatched rest) r takes hr (.inr ho)]
    have placed : (s.dispatched rest).setResume.offer ((s.dispatched rest).reopenReply r false) =
        (s.dispatched rest).setResume.withQueue
          (placeEntry ((s.dispatched rest).reopenReply r false) s.line.txQueue) :=
      State.offer_places (s := (s.dispatched rest).setResume) hroom.1
        (.inl (by simp [State.reopenReply, TxEntry.new])) hroom.2
    rw [placed]
    refine ⟨_, rfl, (State.reopen_tells _).1, ?_, ?_, (State.reopen_keeps _).1⟩
    · rw [State.reopen_roster]; rfl
    · rw [State.reopen_roster]
      show (if s.engine.nodeState = .stopped then NodeState.stopped else
        if s.engine.nodeState = .excluded then s.roster.resume else s.engine.nodeState) = _
      rw [if_neg hroom.1]
      split
      next h => exact h.symm
      next => rfl
  · have other : s.engine.nodeState ≠ .stopped := by simp [hx]
    have unjudged : (s.dispatched rest).faultsCleared.judgeArm = (s.dispatched rest).faultsCleared :=
      State.judgeArm_of_unjudged (by show s.engine.nodeState ∉ _; simp [hx])
    have silent : (s.dispatched rest).faultsCleared.answer r .done = (s.dispatched rest).faultsCleared :=
      State.offer_of_excluded hx
    rw [clear hh, State.handleClearFault_other (s := s.dispatched rest) r other, unjudged, silent]
    refine ⟨_, rfl, rfl, rfl, rfl, fun a => ?_⟩
    simp [State.faultsCleared, State.dispatched, Supervision.clearLatches, ProtectionInput.clearLatch]
  · have takes : s.engine.nodeState.takesReset = true := NodeState.takesReset_iff.2 (.inr hx)
    rw [reset hh, State.handleStationReset_alone (s := s.dispatched rest) r takes (.inl hx),
      State.offer_of_excluded (s := s.dispatched rest) hx,
      State.excludedReset_eq (s := s.dispatched rest) hx]
    have emptied := (s.dispatched rest).stationCleared.queuesEmptied_eq
    have queue : (s.dispatched rest).stationCleared.queuesEmptied.line.txQueue =
        (s.dispatched rest).stationCleared.keptQueue TxEntry.isResetReply := State.emptyTx_queue ..
    have sup : (s.dispatched rest).stationCleared.queuesEmptied.sup = s.sup.stationReset := by
      rw [emptied]
      rfl
    refine ⟨_, rfl, ?_, ?_, ?_, fun c => ?_, fun n => ?_, fun k => ?_, by rw [sup]; rfl, by rw [sup]; rfl,
      by rw [sup]; rfl, fun a => ?_, ?_, ?_, fun e he => ?_, ?_, ?_, ?_, ?_⟩
    · rw [emptied]
      exact if_pos hx
    · rw [emptied]
      rfl
    · rw [emptied]
      rfl
    · rw [sup]
      simp [Supervision.stationReset, Supervision.clearFlags]
    · rw [sup]
      simp [Supervision.stationReset, Supervision.clearFlags]
    · rw [sup]
      simp [Supervision.stationReset]
    · rw [emptied, State.stationCleared_eq]
      simp [State.dispatched, AxisChannel.clearCounts]
    · rw [emptied]
    · rw [emptied]
      rfl
    · exact (State.of_mem_keptQueue (queue ▸ he)).imp id And.left
    all_goals
      rw [emptied]
      rfl
  · have takes : s.engine.nodeState.takesReset = true := NodeState.takesReset_iff.2 (.inr hx)
    rw [reopen hh, State.handleRosterReopen_refused (s := s.dispatched rest) r takes hr]
    exact congrArg Host.Outcome.next (State.offer_of_excluded hx)
  · have takes : s.engine.nodeState.takesReset = true := NodeState.takesReset_iff.2 (.inr hx)
    rw [reopen hh, State.handleRosterReopen_alone (s := s.dispatched rest) r takes hr (.inl hx),
      State.offer_of_excluded (s := (s.dispatched rest).setResume) hx]
    obtain ⟨axes, reg, -, -⟩ := (s.dispatched rest).setResume.reopen_keeps
    have roster := (s.dispatched rest).setResume.reopen_roster
    obtain ⟨-, -, -, phase⟩ := hh
    refine ⟨_, rfl, (State.reopen_tells _).1, ?_, ?_, ?_, ?_, ?_, ?_, State.reopen_queue phase, axes, reg⟩
    · rw [roster]; rfl
    · rw [roster]; rfl
    · rw [roster]; rfl
    · rw [roster]
      show (if s.engine.nodeState = .stopped then NodeState.stopped else
        if s.engine.nodeState = .excluded then s.roster.resume else s.engine.nodeState) = _
      simp [hx]
    · rw [State.reopen_line]
    · rw [roster]; rfl

end

section
/-! PROOFS. The roster's telegrams: ANNOUNCE (R20, R21, R25; O25, O26), DIGEST (R24; O27) and the REPORT
outside the watch (R28; O30). -/

namespace Sys2Proof.Machine

/-- A telegram of its table's length, read without error, is acted on once it has been received (R193). -/
theorem State.arrive_ifLength {s : State} (hs : s.line.state = .receiving) {p : List Byte} {n : Nat}
    (hp : p.length = n) (t : Nat) (f : State → State) :
    s.arrive t (State.ifLength p n f) = f (s.received t) :=
  (State.arrive_of_receiving hs t _).trans (State.ifLength_of_eq hp ..)

/-! ## The sorted table (R21) -/

theorem insertEntry_perm (e : RosterEntry) (es : List RosterEntry) : (insertEntry e es).Perm (e :: es) := by
  induction es with
  | nil => exact .refl _
  | cons x xs ih =>
    simp only [insertEntry]
    split
    · exact .refl _
    · exact (ih.cons x).trans (.swap e x xs)

/-- The order of the table as the statements put it. -/
def RosterEntry.precedes (a b : RosterEntry) : Prop :=
  a.rank.toNat < b.rank.toNat ∨ a.rank = b.rank ∧ a.serial.toNat < b.serial.toNat

theorem RosterEntry.before_iff {a b : RosterEntry} : a.before b = true ↔ a.precedes b := by
  simp [before, precedes]

theorem RosterEntry.precedes_trans {a b c : RosterEntry} (h : a.precedes b) (k : b.precedes c) :
    a.precedes c := by
  unfold precedes at *
  rcases h with h | ⟨h, h'⟩ <;> rcases k with k | ⟨k, k'⟩
  · exact .inl (h.trans k)
  · exact .inl (k ▸ h)
  · exact .inl (h ▸ k)
  · exact .inr ⟨h.trans k, h'.trans k'⟩

/-- Two entries of different serials stand in one order or the other. -/
theorem RosterEntry.precedes_of_not {a b : RosterEntry} (hs : a.serial ≠ b.serial) (h : ¬ a.precedes b) :
    b.precedes a := by
  have serials : a.serial.toNat ≠ b.serial.toNat := fun k => hs (BitVec.eq_of_toNat_eq k)
  unfold precedes at *
  rw [not_or, not_and] at h
  obtain ⟨hr, hk⟩ := h
  rcases Nat.lt_or_eq_of_le (Nat.not_lt.1 hr) with hr | hr
  · exact .inl hr
  · have ranks : a.rank = b.rank := BitVec.eq_of_toNat_eq hr.symm
    have := hk ranks
    exact .inr ⟨ranks.symm, by omega⟩

/-- An entry of a new serial joins a sorted table in sorted order. -/
theorem insertEntry_sorted {e : RosterEntry} {es : List RosterEntry} (hs : ∀ x ∈ es, x.serial ≠ e.serial)
    (h : es.Pairwise RosterEntry.precedes) : (insertEntry e es).Pairwise RosterEntry.precedes := by
  induction es with
  | nil => exact List.pairwise_singleton ..
  | cons x xs ih =>
    obtain ⟨hx, hxs⟩ := List.pairwise_cons.1 h
    obtain ⟨hsx, hsxs⟩ := List.forall_mem_cons.1 hs
    simp only [insertEntry]
    split
    next first =>
      rw [RosterEntry.before_iff] at first
      refine List.pairwise_cons.2 ⟨fun y hy => ?_, h⟩
      rcases List.mem_cons.1 hy with rfl | hy
      · exact first
      · exact RosterEntry.precedes_trans first (hx y hy)
    next later =>
      rw [RosterEntry.before_iff] at later
      refine List.pairwise_cons.2 ⟨fun y hy => ?_, ih hsxs hxs⟩
      rcases List.mem_cons.1 ((insertEntry_perm e xs).mem_iff.1 hy) with rfl | hy
      · exact RosterEntry.precedes_of_not hsx.symm later
      · exact hx y hy

/-! ## The place of a serial -/

theorem serial_of_placeOf {serial : Word32} {table : List RosterEntry} {i : Nat}
    (h : placeOf serial table = some i) : table[i]?.map RosterEntry.serial = some serial := by
  obtain ⟨hi, hp, -⟩ := List.findIdx?_eq_some_iff_getElem.1 h
  simpa [List.getElem?_eq_getElem hi] using hp

theorem placeOf_eq_none {serial : Word32} {table : List RosterEntry} :
    placeOf serial table = none ↔ ∀ e ∈ table, e.serial ≠ serial := by
  simp [placeOf, List.findIdx?_eq_none_iff]

/-! ## An ANNOUNCE heard while SETTLING (R21) -/

/-- The entry that an ANNOUNCE with this payload makes (12.1). -/
def announcedEntry (payload : List Byte) : RosterEntry :=
  .announced (BitVec.ofNat 32 (fieldAt payload 0 4)) (BitVec.ofNat 3 (byteAt payload 4))
    (bitOf (byteAt payload 4) 7)

/-- A participant is announced by the top bit, and never with rank 0. -/
theorem announcedEntry_participant (payload : List Byte) : (announcedEntry payload).participant =
    (decide (128 ≤ byteAt payload 4) && decide ((announcedEntry payload).rank ≠ 0)) := by
  have : byteAt payload 4 < 256 := (payload[4]?.getD 0).isLt
  have top : bitOf (byteAt payload 4) 7 = decide (128 ≤ byteAt payload 4) := by
    rw [bitOf, Bool.eq_iff_iff, beq_iff_eq, decide_eq_true_iff]
    omega
  rw [← top]
  by_cases hr : BitVec.ofNat 3 (byteAt payload 4) = 0#3 <;>
    simp [announcedEntry, RosterEntry.announced, RosterEntry.own, hr]

theorem exec_announce_settling {s : State} {p : List Byte} (hs : s.line.state = .receiving)
    (hp : p.length = 5) (hc : s.roster.phase = .settling) (t : Nat) (station : BitVec 5) :
    exec (.announce t station p) s =
      .next ((s.received t).onRoster (.hear s.serial (max s.now t) (announcedEntry p))) := by
  refine congrArg Host.Outcome.next ((State.arrive_ifLength hs hp t _).trans ?_)
  simp only [State.received, hc]
  rfl

/-- A known serial only restarts the quiet timer. -/
theorem Roster.hear_known {r : Roster} {e : RosterEntry} (h : ∃ x ∈ r.table, x.serial = e.serial)
    (own : Word32) (now : Nat) : r.hear own now e = { r with quietStart := now } := by
  have known : r.table.any (fun x => x.serial == e.serial) = true := by simpa using h
  simp [hear, known]

/-- The table with a new entry placed: a full one loses its last entry. -/
def Roster.tableWith (e : RosterEntry) (r : Roster) : List RosterEntry :=
  if 24 ≤ r.table.length then (insertEntry e r.table).dropLast else insertEntry e r.table

theorem Roster.hear_new {r : Roster} {e : RosterEntry} (h : ∀ x ∈ r.table, x.serial ≠ e.serial)
    (own : Word32) (now : Nat) : r.hear own now e = { r with
      quietStart := now
      table := r.tableWith e
      ownPosition := r.ownPosition.bind fun _ => placeOf own (r.tableWith e)
      beyondCount := if 24 ≤ r.table.length then min 255 (r.beyondCount + 1) else r.beyondCount } := by
  have new : r.table.any (fun x => x.serial == e.serial) = false := by simpa using h
  simp only [hear, new, Bool.false_eq_true, if_false]
  rfl

theorem Roster.hear_quietStart (own : Word32) (now : Nat) (e : RosterEntry) (r : Roster) :
    (r.hear own now e).quietStart = now := by
  unfold hear
  dsimp only
  split <;> rfl

/-! ## A mismatch on a CLOSED roster (R24, R25) -/

/-- The mismatch fails arm condition 5, so that the judgement leaves no node ARMED or PENDING. -/
theorem State.judgeArm_of_mismatch {s : State} (h : s.roster.mismatch = true) :
    s.judgeArm.engine.nodeState ≠ .armed ∧ s.judgeArm.engine.nodeState ≠ .pending := by
  have fails : s.armHolds = false := by simp [State.armHolds, h]
  unfold State.judgeArm
  split <;> simp [*]

/-- What makes ROSTER_MISMATCH live. -/
def State.mismatched (s : State) : State := (s.onRoster fun r => { r with mismatch := true }).judgeArm

theorem State.mismatched_spec (s : State) : s.mismatched.roster = { s.roster with mismatch := true } ∧
    s.mismatched.axes = s.axes ∧ s.mismatched.store = s.store ∧
    s.mismatched.engine.nodeState ≠ .armed ∧ s.mismatched.engine.nodeState ≠ .pending := by
  have told := Tells.judgeArm (s.onRoster fun r => { r with mismatch := true })
  refine ⟨?_, ?_, ?_, State.judgeArm_of_mismatch rfl⟩ <;>
    · rw [State.mismatched, told.fixed]
      rfl

/-! ## The REPORT of a listed station (R28) -/

/-- R28, steps 1 to 3, on the entry's place in the table. -/
theorem State.onEntry_set {s : State} {i : Nat} {e : RosterEntry} (h : s.roster.table[i]? = some e)
    (f : RosterEntry → RosterEntry) : s.onEntry i f =
      { s with roster := { s.roster with table := s.roster.table.set i (f e) } } := by
  obtain ⟨hi, he⟩ := List.getElem?_eq_some_iff.1 h
  simp only [State.onEntry, State.onRoster, List.modify_eq_set_get f hi, List.get_eq_getElem, he]

/-- A telegram read whole on a CLOSED roster reaches the table (R22, R28). -/
theorem exec_report {s : State} {p : List Byte} (hs : s.line.state = .receiving) (hp : p.length = 24)
    (hc : s.roster.phase = .closed) (t : Nat) (station : BitVec 5) : exec (.report t station p) s =
      .next ((s.received t).takeReport station.toNat (readReport p)) := by
  refine congrArg Host.Outcome.next ((State.arrive_ifLength hs hp t _).trans ?_)
  simp only [State.received, hc]

/-- A station that is not listed with a rank above 0 is ignored. -/
theorem State.takeReport_ignored {s : State} {i : Nat}
    (h : ∀ e, s.roster.table[i]? = some e → e.rank = 0) (f : ReportFields) : s.takeReport i f = s := by
  unfold State.takeReport
  split
  · rfl
  next e he => rw [if_pos (h e he)]

/-- Any other station's report is recorded, and watched in a pass. -/
theorem State.takeReport_recorded {s : State} {i : Nat} {e : RosterEntry}
    (h : s.roster.table[i]? = some e) (hr : e.rank ≠ 0) (f : ReportFields) : s.takeReport i f =
      if s.engine.nodeState.inPass && e.watched then (s.onEntry i (.reported s.now f.state)).watch i f
      else s.onEntry i (.reported s.now f.state) := by
  simp only [State.takeReport, h, if_neg hr]
  rfl

end Sys2Proof.Machine

open Sys2Proof Sys2Proof.Machine

/-- Settles O25: the offer finds room and places the ANNOUNCE (`State.offer_places`). -/
theorem announceIsOffered : Obligations.AnnounceIsOffered := by
  unfold Obligations.AnnounceIsOffered
  intro s due hp hs hroom
  have run : exec .announceDelayExpiry s = .next (s.reach due).offerAnnounce := by
    show Host.Outcome.next (match s.roster.phase, s.roster.schedule with
      | .settling, .delay due => (s.reach due).offerAnnounce
      | _, _ => s) = _
    rw [hp, hs]
  have byte (n : Nat) : BitVec.ofNat 8 (s.serial.toNat / 256 ^ n) = s.serial.extractLsb' (8 * n) 8 := by
    apply BitVec.eq_of_toNat_eq
    simp [Nat.shiftRight_eq_div_pow, Nat.pow_mul]
  have payload : (s.reach due).announcePayload =
      [s.serial.extractLsb' (8 * 3) 8, s.serial.extractLsb' (8 * 2) 8, s.serial.extractLsb' (8 * 1) 8,
       s.serial.extractLsb' (8 * 0) 8, if s.participant then 129 else 1] := by
    simp only [State.announcePayload, bytesOf, State.reach_serial, State.reach_participant, byte]
    cases s.participant <;> rfl
  rw [run, State.offerAnnounce, State.offer_places (s := (s.reach due).onRoster _) hroom.1
    (.inl (by simp [TxEntry.new])) hroom.2, payload]
  rfl

/-- Settles O26: a new serial is placed by `Roster.hear_new`, in sorted order (`insertEntry_sorted`), and the
own position is its own serial's place (`serial_of_placeOf`). -/
theorem announceJoinsTheTable : Obligations.AnnounceJoinsTheTable := by
  unfold Obligations.AnnounceJoinsTheTable
  intro t station payload s hs hp hl
  refine ⟨_, exec_announce_settling hs hl hp t station, rfl, Roster.hear_quietStart ..,
    fun known => ?_, fun new sorted => ?_, rfl⟩
  · have heard := Roster.hear_known (e := announcedEntry payload) known s.serial (max s.now t)
    exact congrArg (fun r => { s.received t with roster := r }) heard
  · have heard := Roster.hear_new (e := announcedEntry payload) new s.serial (max s.now t)
    rw [State.onRoster_roster, State.received, heard]
    refine ⟨announcedEntry payload, rfl, rfl, announcedEntry_participant payload, rfl, rfl, rfl,
      insertEntry (announcedEntry payload) s.roster.table, insertEntry_perm ..,
      insertEntry_sorted new sorted, fun room => ?_, fun full => ?_, fun i hi => ?_, ?_⟩
    · simp [Roster.tableWith, Nat.not_le.2 room]
    · simp [Roster.tableWith, full]
    · obtain ⟨_, -, place⟩ := Option.bind_eq_some_iff.1 hi
      exact serial_of_placeOf place
    · rw [← placeOf_eq_none]
      cases s.roster.ownPosition <;> simp

/-- Settles O27: a mismatch reaches the flag and the arm judgement (`State.mismatched_spec`). -/
theorem lateAnnounceOrDigestMismatches : Obligations.LateAnnounceOrDigestMismatches := by
  unfold Obligations.LateAnnounceOrDigestMismatches
  intro t station s hs
  have digest (payload : List Byte) (hl : payload.length = 3) : exec (.digest t station payload) s =
      .next (match s.roster.phase with
        | .settling => s.received t
        | .closed => if byteAt payload 0 = s.roster.table.length ∧
            fieldAt payload 1 2 = s.roster.check.toNat then s.received t
          else (s.received t).mismatched) := by
    exact congrArg Host.Outcome.next (State.arrive_ifLength hs hl t _)
  refine ⟨fun payload hl hc => ?_, fun payload hl => ⟨fun hset => ?_, fun hc hn hk => ?_,
    fun hc differs => ?_⟩⟩
  · have announce : exec (.announce t station payload) s = .next (s.received t).mismatched := by
      refine congrArg Host.Outcome.next ((State.arrive_ifLength hs hl t _).trans ?_)
      simp only [State.received, hc]
      rfl
    exact ⟨_, announce, (s.received t).mismatched_spec⟩
  · rw [digest payload hl, hset]
    rfl
  · rw [digest payload hl, hc]
    exact congrArg Host.Outcome.next (if_pos ⟨hn, hk⟩)
  · obtain ⟨roster, -, -, armed, -⟩ := (s.received t).mismatched_spec
    refine ⟨(s.received t).mismatched, ?_, roster, armed⟩
    rw [digest payload hl, hc]
    exact congrArg Host.Outcome.next (if_neg differs)

/-- Settles O30: `State.takeReport_ignored` and, outside the watch, `State.takeReport_recorded`. -/
theorem reportIsRecorded : Obligations.ReportIsRecorded := by
  unfold Obligations.ReportIsRecorded
  intro t station payload s hs hc hl
  rw [exec_report hs hl hc]
  refine ⟨fun unlisted => ?_, fun e he hr hw => ?_⟩
  · exact congrArg Host.Outcome.next (State.takeReport_ignored (s := s.received t) unlisted _)
  · have unwatched : ((s.received t).engine.nodeState.inPass && e.watched) = false := by
      rcases hw with hw | hw
      · simp [hw]
      · simp [State.received, hw]
    rw [State.takeReport_recorded (s := s.received t) he hr, unwatched,
      State.onEntry_set (s := s.received t) he]
    rfl

end

section
/-! PROOFS. A START as the engine judges it (R29, R102, R103; O45), and the fields of a telegram read back
from its bytes (R192). -/

namespace Sys2Proof.Machine

/-! ## Fields read back (R192) -/

theorem byteAt_append (before p : List Byte) (i : Nat) :
    byteAt (before ++ p) (before.length + i) = byteAt p i := by
  rw [byteAt, List.getElem?_append_right (Nat.le_add_right ..), Nat.add_sub_cancel_left]
  rfl

/-- A field behind other bytes. -/
theorem fieldAt_append (before p : List Byte) (i n : Nat) :
    fieldAt (before ++ p) (before.length + i) n = fieldAt p i n := by
  induction n generalizing i with
  | zero => rfl
  | succ n ih => rw [fieldAt, fieldAt, byteAt_append, Nat.add_assoc, ih]

/-- The low bytes of a number, written as a field, give the number's low part. -/
theorem fieldAt_bytesOf (v n : Nat) (behind : List Byte) :
    fieldAt (bytesOf v n ++ behind) 0 n = v % 256 ^ n := by
  induction n with
  | zero => simp [fieldAt, Nat.mod_one]
  | succ n ih =>
    have rest := fieldAt_append [BitVec.ofNat 8 (v / 256 ^ n)] (bytesOf v n ++ behind) 0 n
    rw [bytesOf, List.cons_append, fieldAt, Nat.pow_succ, Nat.mod_mul, ← ih, ← rest]
    simp [byteAt, Nat.mul_comm, Nat.add_comm]

@[simp] theorem length_bytesOf (v n : Nat) : (bytesOf v n).length = n := by
  induction n with
  | zero => rfl
  | succ n ih => simp [bytesOf, ih]

/-! ## The findings (R103) -/

/-- The findings in R103's order, each with whether it applies. -/
def State.startFindings (f : StartFields) (s : State) : List (DeclineReason × Bool) :=
  [(.rosterMismatch, s.roster.phase ≠ .closed ∨ s.roster.mismatch),
   (.notArmed, s.engine.nodeState ≠ .armed),
   (.paramRange, f.inRange = false),
   (.moveId, f.moveId ≠ s.validMoveId),
   (.scaleDiffers, f.scale ≠ s.engine.path.scale),
   (.countDiffers, f.count ≠ s.roster.participantCount),
   (.tooLate, f.startFrame ≤ s.clock.roll + 1),
   (.peerNotArmed, othersArmed s.now s.roster.ownPosition 0 s.roster.table = false)]

/-- The judgement is the first finding that applies. -/
theorem State.judgeStart_eq (f : StartFields) (s : State) :
    s.judgeStart f = ((s.startFindings f).find? Prod.snd).map Prod.fst := by
  unfold State.judgeStart State.startFindings
  split_ifs <;> simp [*]

theorem State.judgeStart_eq_none {f : StartFields} {s : State} :
    s.judgeStart f = none ↔ ∀ x ∈ s.startFindings f, x.2 = false := by
  simp [State.judgeStart_eq]

/-- Of the findings that apply the first one is named. -/
theorem State.judgeStart_of_first {f : StartFields} {s : State} {before behind : List (DeclineReason × Bool)}
    {reason : DeclineReason} (h : s.startFindings f = before ++ (reason, true) :: behind)
    (hb : ∀ x ∈ before, x.2 = false) : s.judgeStart f = some reason := by
  have none : before.find? Prod.snd = none := by simpa using hb
  rw [State.judgeStart_eq, h, List.find?_append, none]
  rfl

theorem RosterEntry.freshArmed_iff {now : Nat} {e : RosterEntry} : e.freshArmed now = true ↔
    e.lastState = some 5 ∧ ∃ heard, e.lastReport = some heard ∧ now - heard < 15000000 := by
  unfold freshArmed
  rw [Bool.and_eq_true, beq_iff_eq]
  refine and_congr_right fun _ => ?_
  cases e.lastReport with
  | none => simp
  | some heard => exact ⟨fun h => ⟨heard, rfl, of_decide_eq_true h⟩, fun ⟨_, rfl, h⟩ => decide_eq_true h⟩

/-- R29, with the table's places counted from `i`. -/
theorem othersArmed_eq_false {now : Nat} {own : Option Nat} {i : Nat} {es : List RosterEntry} :
    othersArmed now own i es = false ↔ ∃ (k : Nat) (e : RosterEntry), es[k]? = some e ∧
      e.participant = true ∧ own ≠ some (i + k) ∧ e.freshArmed now = false := by
  induction es generalizing i with
  | nil => simp [othersArmed]
  | cons x xs ih =>
    rw [othersArmed, Bool.and_eq_false_iff, ih]
    constructor
    · rintro (hx | ⟨k, e, he, hp, ho, hf⟩)
      · exact ⟨0, x, rfl, by simpa [and_assoc] using hx⟩
      · exact ⟨k + 1, e, he, hp, by rwa [show i + (k + 1) = i + 1 + k by omega], hf⟩
    · rintro ⟨_ | k, e, he, hp, ho, hf⟩
      · obtain rfl : x = e := by simpa using he
        exact .inl (by simp_all)
      · exact .inr ⟨k, e, he, hp, by rwa [show i + 1 + k = i + (k + 1) by omega], hf⟩

/-- R29: some other participant is stale. -/
theorem othersArmed_stale {now : Nat} {own : Option Nat} {es : List RosterEntry} :
    othersArmed now own 0 es = false ↔ ∃ (i : Nat) (e : RosterEntry), es[i]? = some e ∧
      e.participant = true ∧ own ≠ some i ∧
      ¬ (e.lastState = some 5 ∧ ∃ heard, e.lastReport = some heard ∧ now - heard < 15000000) := by
  simp only [othersArmed_eq_false, Nat.zero_add, ← RosterEntry.freshArmed_iff, Bool.not_eq_true]

theorem StartFields.inRange_eq_false {f : StartFields} : f.inRange = false ↔
    ¬ (1 ≤ f.rate ∧ f.rate ≤ 16384 ∧ 256 ≤ f.scale ∧ f.scale ≤ 65536 ∧
      16 ≤ f.haltLength ∧ f.haltLength ≤ 4096 ∧ f.interval ∈ [1, 2, 4, 8]) := by
  rw [← Bool.not_eq_true, inRange]
  simp [and_assoc]

/-! ## A START taken (R102, R103) -/

theorem State.judgesStart_iff {s : State} :
    s.judgesStart = true ↔ s.participant = true ∧ s.roster.station ≠ none := by
  simp [State.judgesStart, Option.isSome_iff_ne_none]

theorem exec_start {s : State} {p : List Byte} (hs : s.line.state = .receiving) (hp : p.length = 16)
    (t : Nat) (station : BitVec 5) :
    exec (.start t station p) s = .next ((s.received t).takeStart (readStart p)) :=
  congrArg Host.Outcome.next (State.arrive_ifLength hs hp t _)

section
variable {f : StartFields} {s : State}

theorem State.takeStart_unjudged (h : ¬ (s.participant = true ∧ s.roster.station ≠ none)) :
    s.takeStart f = s := by
  rw [State.takeStart, if_pos (mt State.judgesStart_iff.1 h)]

variable (h : s.participant = true ∧ s.roster.station ≠ none)
include h

theorem State.takeStart_stray (hb : s.engine.nodeState = .pending ∨ s.engine.nodeState.inPass = true) :
    s.takeStart f = s.count .strayStarts := by
  rw [State.takeStart, if_neg (not_not.2 (State.judgesStart_iff.2 h)), if_pos hb]

variable (hb : ¬ (s.engine.nodeState = .pending ∨ s.engine.nodeState.inPass = true))
include hb

theorem State.takeStart_accepted (hj : s.judgeStart f = none) : s.takeStart f = s.acceptStart f := by
  simp only [State.takeStart, State.judgesStart_iff.2 h, not_true_eq_false, if_false, if_neg hb, hj]

theorem State.takeStart_declined {reason : DeclineReason} (hj : s.judgeStart f = some reason) :
    s.takeStart f = s.offerDecline f.startFrame reason := by
  simp only [State.takeStart, State.judgesStart_iff.2 h, not_true_eq_false, if_false, if_neg hb, hj]

end

/-- An accepted START changes the pass parameters, and the rest only by what the change to PENDING tells. -/
theorem State.acceptStart_spec (f : StartFields) (s : State) :
    (s.acceptStart f).engine.nodeState = .pending ∧
    (s.acceptStart f).engine.params = some
      { startFrame := f.startFrame, moveId := BitVec.ofNat 32 f.moveId, rate := f.rate, scale := f.scale
        haltLength := f.haltLength, interval := f.interval } ∧
    (s.acceptStart f).engine.path = s.engine.path ∧ (s.acceptStart f).axes = s.axes ∧
    (s.acceptStart f).store = s.store ∧ (s.acceptStart f).reg = s.reg ∧
    (s.acceptStart f).sup.latched = s.sup.latched := by
  refine ⟨State.enterNode_nodeState .., ?_, ?_, ?_, ?_, ?_, ?_⟩ <;>
    · rw [State.acceptStart, (Tells.enterNode ..).fixed]
      rfl

/-- With room a DECLINE waits in the queue, naming the start frame and its reason (R104). -/
theorem State.offerDecline_waits {s : State} (h : s.hasRoom) {f : Nat} (hf : f < 2 ^ 20)
    (reason : DeclineReason) :
    s.offerDecline f reason = { s with
      line := { s.line with txQueue := (s.offerDecline f reason).line.txQueue } } ∧
    ∃ e ∈ (s.offerDecline f reason).line.txQueue, e.cls = 1 ∧ e.kind = 1 ∧ e.owner = .decline ∧
      e.payload.length = 4 ∧ fieldAt e.payload 0 3 = f ∧ byteAt e.payload 3 = reason.code := by
  rw [State.offerDecline, State.offer_places h.1 (.inl (by simp [TxEntry.new])) h.2]
  refine ⟨rfl, _, (placeEntry_perm _ _).mem_iff.2 List.mem_cons_self, rfl, rfl, rfl, rfl, ?_, ?_⟩
  · exact (fieldAt_bytesOf ..).trans (Nat.mod_eq_of_lt (by omega))
  · cases reason <;> rfl

end Sys2Proof.Machine

open Sys2Proof Sys2Proof.Machine

/-- Settles O45: the statement's findings are `State.startFindings`, of which the judgement is the first that
applies (`State.judgeStart_of_first`). -/
theorem startIsJudged : Obligations.StartIsJudged := by
  unfold Obligations.StartIsJudged
  intro t station p s hs hp
  rw [exec_start hs hp]
  intro read judges busy startFrame stale findings
  have listed (h : judges) : ((s.received t).startFindings (readStart p)).map
      (fun x => (x.1.code, (x.2 = true : Prop))) = findings := by
    have closed : (s.received t).roster.phase = .closed :=
      (Roster.station_isSome.1 (Option.isSome_iff_ne_none.2 h.2)).1
    simp only [State.startFindings, List.map_cons, List.map_nil, decide_eq_true_eq,
      StartFields.inRange_eq_false, closed, ne_eq, not_true_eq_false, false_or, othersArmed_stale,
      Roster.participantCount, List.countP_eq_length_filter]
    rfl
  refine ⟨fun h => ?_, fun h hb => ?_, fun h hb none => ?_,
    fun before behind n found h hb room split none hfound => ?_⟩
  · exact congrArg Host.Outcome.next (State.takeStart_unjudged (s := s.received t) h)
  · exact congrArg Host.Outcome.next (State.takeStart_stray (s := s.received t) h hb)
  · have accepted : (s.received t).judgeStart (readStart p) = Option.none := by
      refine State.judgeStart_eq_none.2 fun x hx => Bool.eq_false_iff.2 ?_
      exact none _ (listed h ▸ List.mem_map_of_mem hx)
    refine ⟨_, rfl, ?_⟩
    rw [State.takeStart_accepted (s := s.received t) h hb accepted]
    exact (s.received t).acceptStart_spec (readStart p)
  · obtain ⟨ys, zs, hfind, hys, hzs⟩ := List.map_eq_append_iff.1 ((listed h).trans split)
    obtain ⟨⟨reason, applies⟩, ws, rfl, heq, -⟩ := List.map_eq_cons_iff.1 hzs
    obtain ⟨rfl, rfl⟩ := Prod.mk.inj heq
    obtain rfl : applies = true := hfound
    have earlier : ∀ x ∈ ys, x.2 = false := fun x hx =>
      Bool.eq_false_iff.2 (none _ (hys ▸ List.mem_map_of_mem hx))
    have declined := State.judgeStart_of_first hfind earlier
    refine ⟨_, rfl, ?_⟩
    rw [State.takeStart_declined (s := s.received t) h hb declined]
    exact State.offerDecline_waits (s := s.received t) room (Nat.mod_lt _ (by decide)) reason

end

section
/-! PROOFS. Causes raised in a pass under the default dispositions (R115, R117, R119, R187): a latch, and in
RUNNING with no ramp start held the node's own HALT. The watch of a participant's report (R28, R30, R31; O31)
is made of them. -/

namespace Sys2Proof.Machine

/-! ## What an offer leaves (R13, R15) -/

/-- An offer reaches the transmit queue, the drop counter and, for a telegram that leaves the queue unsent,
what its outcome reaches. -/
theorem State.offer_flushed {e : TxEntry} (he : e.sending = false) (s : State) :
    ∃ (q : List TxEntry) (k : Vector Nat 11), (∀ i : Fin 11, i ≠ 6 → k[i] = s.sup.counters[i]) ∧
      Flushed ((s.withQueue q).onSup fun u => { u with counters := k }) (s.offer e) := by
  have dropped (i : Fin 11) (hi : i ≠ 6) : (s.count .txDrops).sup.counters[i] = s.sup.counters[i] :=
    (Calm.count_txDrops s).counters i hi
  have h := s.offered he
  generalize s.offer e = t at h
  cases h with
  | excluded => exact ⟨s.line.txQueue, s.sup.counters, fun _ _ => rfl, .refl s⟩
  | replaced before behind x =>
    exact ⟨before ++ { x with payload := e.payload } :: behind, s.sup.counters, fun _ _ => rfl, .refl _⟩
  | placed => exact ⟨placeEntry e s.line.txQueue, s.sup.counters, fun _ _ => rfl, .refl _⟩
  | displaced before behind => exact ⟨before ++ behind, _, dropped, .outcome ..⟩
  | dropped => exact ⟨s.line.txQueue, _, dropped, .outcome ..⟩

/-! ## Latches (R187) -/

/-- A latch writes the cause's flag, its axis set and its origin. -/
theorem Supervision.latch_eq (c : Cause) (a : Option (Fin 4)) (n : Option Nat) (u : Supervision) :
    u.latch c a n = { u with
      latched := (u.latch c a n).latched, axisSets := (u.latch c a n).axisSets
      origins := (u.latch c a n).origins } := by
  unfold latch addOrigin addAxis
  repeat' split
  all_goals rfl

theorem Supervision.latch_axisSets (c : Cause) (a : Option (Fin 4)) (n : Option Nat) (u : Supervision) :
    (u.latch c a n).axisSets = (u.addAxis c a).axisSets := by
  unfold latch addOrigin addAxis
  repeat' split
  all_goals rfl

theorem Cause.idx_injective {c k : Cause} (h : c.idx = k.idx) : c = k := by
  revert h
  cases c <;> cases k <;> decide

theorem State.latchedCause_latch_of_ne {c k : Cause} (h : k ≠ c) (a : Option (Fin 4)) (n : Option Nat)
    (s : State) : (s.latch c a n).latchedCause k = s.latchedCause k := by
  rw [State.latchedCause, State.latch_latched]
  exact Vector.getElem_set_ne _ _ fun hi => h (Cause.idx_injective (Fin.ext hi)).symm

/-! ## The node's own HALT (R119) -/

/-- The halt record once the node has set its own ramp start. -/
def State.haltRecorded (code : Byte) (s : State) : State :=
  s.onEngine fun e => { e with halt := { e.halt with
    rampStart := some s.engine.ownRampStart, cause := some ⟨code, s.ownNumber⟩
    ownHalt := some s.engine.ownRampStart } }

/-- The HALT that it offers. -/
def State.ownHaltEntry (code : Byte) (s : State) : TxEntry :=
  .new 0 s.stationField 0 (bytesOf s.passStart 3 ++ bytesOf s.engine.ownRampStart 4 ++ [code]) (.halt true)

theorem State.ownHaltEvent_eq {s : State} (h : s.engine.halt.rampStart = none) (code : Byte) :
    s.ownHaltEvent code = (s.haltRecorded code).offer (s.ownHaltEntry code) := by
  simp only [State.ownHaltEvent, h]
  rfl

/-- From `s` to `t` a node in RUNNING that held no ramp start may have offered its own HALT, and no other has. -/
structure HaltsOnce (s t : State) : Prop where
  of_held : s.engine.halt.rampStart ≠ none ∨ s.engine.nodeState ≠ .running →
    t.engine.halt = s.engine.halt ∧ t.line = s.line
  cases : t.engine.halt = s.engine.halt ∧ t.line = s.line ∨
    t.engine.halt.rampStart = some s.engine.ownRampStart ∧
      (s.line.txQueue.length < 8 → ∃ e : TxEntry, e.owner = .halt true ∧
        t.line.txQueue = placeEntry e s.line.txQueue)

/-- From `s` to `t` causes have been raised in a pass: beside the flags and what STATUS shows of them nothing
has changed but what the own HALT changes. -/
structure Raised (s t : State) : Prop where
  fixed : t = { s with
    line := { s.line with
      txQueue := t.line.txQueue, flushDue := t.line.flushDue, reopenDue := t.line.reopenDue }
    roster := { s.roster with announceSeq := t.roster.announceSeq, schedule := t.roster.schedule }
    engine := { s.engine with halt := { s.engine.halt with
      rampStart := t.engine.halt.rampStart, cause := t.engine.halt.cause
      ownHalt := t.engine.halt.ownHalt } }
    sup := { s.sup with
      latched := t.sup.latched, axisSets := t.sup.axisSets, origins := t.sup.origins
      counters := t.sup.counters, exception := t.sup.exception
      exceptionCount := t.sup.exceptionCount }
    free := t.free }
  latched : ∀ c, s.latchedCause c = true → t.latchedCause c = true
  counters : ∀ k : Fin 11, k ≠ 6 → t.sup.counters[k] = s.sup.counters[k]
  halts : HaltsOnce s t

/-- The node is in a pass and the default dispositions stand (R89, R115). -/
structure State.Passing (s : State) : Prop where
  inPass : s.engine.nodeState.inPass = true
  defaults : s.defaults

namespace Raised

/-- Nothing but flags and what STATUS shows of them has changed. -/
theorem of_sup {s t : State} (h : t = { s with
      sup := { s.sup with
        latched := t.sup.latched, axisSets := t.sup.axisSets, origins := t.sup.origins
        exception := t.sup.exception, exceptionCount := t.sup.exceptionCount }
      free := t.free })
    (hl : ∀ c, s.latchedCause c = true → t.latchedCause c = true) : Raised s t := by
  have line : t.line = s.line := by rw [h]
  have roster : t.roster = s.roster := by rw [h]
  have engine : t.engine = s.engine := by rw [h]
  have counters : t.sup.counters = s.sup.counters := by rw [h]
  refine ⟨?_, hl, by simp [counters], fun _ => ⟨by rw [engine], line⟩, .inl ⟨by rw [engine], line⟩⟩
  rw [line, roster, engine, counters]
  exact h

theorem refl (s : State) : Raised s s := of_sup rfl fun _ => id

section
variable {s t u : State} (h : Raised s t)
include h

theorem nodeState : t.engine.nodeState = s.engine.nodeState := congrArg (·.engine.nodeState) h.fixed

theorem ownRampStart : t.engine.ownRampStart = s.engine.ownRampStart :=
  congrArg (·.engine.ownRampStart) h.fixed

theorem passing (hs : s.Passing) : t.Passing where
  inPass := h.nodeState ▸ hs.inPass
  defaults := (congrArg (·.sup.dispositions) h.fixed).trans hs.defaults

theorem trans (k : Raised t u) : Raised s u where
  fixed := by
    have hk := k.fixed
    rw [h.fixed] at hk
    exact hk
  latched c := k.latched c ∘ h.latched c
  counters c hc := (k.counters c hc).trans (h.counters c hc)
  halts := by
    refine ⟨fun held => ?_, ?_⟩
    · obtain ⟨halt, line⟩ := h.halts.of_held held
      obtain ⟨halt', line'⟩ := k.halts.of_held (by rwa [halt, h.nodeState])
      exact ⟨halt'.trans halt, line'.trans line⟩
    · rcases h.halts.cases with ⟨halt, line⟩ | ⟨ramp, placed⟩
      · rw [← halt, ← line, ← h.ownRampStart]
        exact k.halts.cases
      · obtain ⟨halt, line⟩ := k.halts.of_held (.inl (by simp [ramp]))
        rw [halt, line]
        exact .inr ⟨ramp, placed⟩

/-- An operation that follows in the pass. -/
theorem andThen (hs : s.Passing) (k : t.Passing → Raised t u) : Raised s u := h.trans (k (h.passing hs))

end

theorem foldl {α : Type} {f : State → α → State} (hf : ∀ s a, s.Passing → Raised s (f s a)) (l : List α)
    {s : State} (hs : s.Passing) : Raised s (l.foldl f s) := by
  induction l generalizing s with
  | nil => exact refl s
  | cons a l ih => exact (hf s a hs).andThen hs ih

theorem latch (c : Cause) (a : Option (Fin 4)) (n : Option Nat) (s : State) : Raised s (s.latch c a n) := by
  refine of_sup ?_ fun k => (Calm.latch c a n s).latchedCause
  have fixed := Supervision.latch_eq c a n s.sup
  show { s with sup := s.sup.latch c a n } = _
  rw [State.latch, State.onSup_sup]
  generalize s.sup.latch c a n = v at fixed
  rw [fixed]
  rfl

/-- R119: the ramp start and the HALT, with no ramp start held. -/
theorem ownHaltEvent {s : State} (hn : s.engine.nodeState = .running) (code : Byte) :
    Raised s (s.ownHaltEvent code) := by
  by_cases hr : s.engine.halt.rampStart = none
  · rw [State.ownHaltEvent_eq hr]
    obtain ⟨q, k, hk, h⟩ := State.offer_flushed (e := s.ownHaltEntry code) rfl (s.haltRecorded code)
    have fixed := h.fixed
    have placed (hl : s.line.txQueue.length < 8) : ((s.haltRecorded code).offer (s.ownHaltEntry code)).line.txQueue =
        placeEntry (s.ownHaltEntry code) s.line.txQueue := by
      rw [State.offer_places (s := s.haltRecorded code) (by simp [State.haltRecorded, hn])
        (.inl (by simp [State.ownHaltEntry, TxEntry.new])) hl]
      rfl
    generalize (s.haltRecorded code).offer (s.ownHaltEntry code) = t at fixed placed
    have sup : t.sup = { s.sup with counters := k } := congrArg State.sup fixed
    refine ⟨?_, fun c hc => ?_, fun i hi => ?_, fun hh => ?_, .inr ⟨?_, fun hl => ⟨_, rfl, placed hl⟩⟩⟩
    · rw [fixed]
      rfl
    · rwa [State.latchedCause, sup]
    · rw [sup]
      exact hk i hi
    · exact absurd hn (hh.resolve_left (not_not.2 hr))
    · exact congrArg (·.engine.halt.rampStart) fixed
  · obtain ⟨ramp, hr⟩ := Option.ne_none_iff_exists'.1 hr
    rw [State.ownHaltEvent, hr]
    exact refl s

end Raised

theorem State.ownHaltEvent_unhalted {s : State} (h : s.engine.halt.rampStart = none) (code : Byte) :
    (s.ownHaltEvent code).engine.halt.rampStart = some s.engine.ownRampStart ∧
    (s.ownHaltEvent code).engine.halt.cause = some ⟨code, s.ownNumber⟩ := by
  rw [State.ownHaltEvent_eq h]
  obtain ⟨q, k, -, told⟩ := State.offer_flushed (e := s.ownHaltEntry code) rfl (s.haltRecorded code)
  exact ⟨congrArg (·.engine.halt.rampStart) told.fixed, congrArg (·.engine.halt.cause) told.fixed⟩

/-! ## Raising a cause in a pass (R117, R187) -/

section
variable {s : State} {c : Cause} (a : Option (Fin 4)) (n : Option Nat)

theorem State.disposition_latch : (s.latch c a n).sup.disposition c = s.sup.disposition c := by
  rw [State.latch, State.onSup_sup, Supervision.latch_eq]
  rfl

theorem State.raise_warn (h : s.sup.disposition c = .warn) : s.raise c a n = s.latch c a n := by
  simp only [State.raise, State.disposition_latch, h]

theorem State.raise_haltRig (h : s.sup.disposition c = .haltRig) :
    s.raise c a n = (s.latch c a n).haltRig c := by
  simp only [State.raise, State.disposition_latch, h]

theorem State.disposition_of_defaults (h : s.defaults) :
    s.sup.disposition c = defaultDispositions[c.idx] := by
  rw [Supervision.disposition, h]

variable (hd : s.defaults) (hc : defaultDispositions[c.idx] = .haltRig)
include hd hc

/-- Past a ramp start, or in HALTING, a halting cause is latched and does nothing more. -/
theorem State.raise_halted (hp : s.engine.nodeState.inPass = true)
    (h : ¬ (s.engine.nodeState = .running ∧ s.engine.halt.rampStart = none)) :
    s.raise c a n = s.latch c a n := by
  rw [State.raise_haltRig a n ((State.disposition_of_defaults hd).trans hc), State.haltRig]
  cases hn : s.engine.nodeState <;> simp [hn, NodeState.inPass] at hp
  · obtain ⟨ramp, hr⟩ := Option.ne_none_iff_exists'.1 fun hr => h ⟨hn, hr⟩
    simp [State.latch, hn, hr, State.ownHaltEvent]
  · simp [State.latch, hn]

/-- A node in RUNNING with no ramp start held halts. -/
theorem State.raise_unhalted (h : s.engine.nodeState = .running) :
    s.raise c a n = (s.latch c a n).ownHaltEvent c.byte := by
  rw [State.raise_haltRig a n ((State.disposition_of_defaults hd).trans hc), State.haltRig]
  simp [State.latch, h]

/-- The ramp start that the cause brings. -/
theorem State.raise_rampStart (h : s.engine.nodeState = .running) (hr : s.engine.halt.rampStart = none) :
    (s.raise c a n).engine.halt.rampStart = some s.engine.ownRampStart ∧
    (s.raise c a n).engine.halt.cause = some ⟨c.byte, s.ownNumber⟩ := by
  rw [State.raise_unhalted a n hd hc h]
  exact State.ownHaltEvent_unhalted (s := s.latch c a n) hr _

end

theorem Raised.raise {s : State} (hs : s.Passing) {c : Cause} (hc : defaultDispositions[c.idx] ≠ .stopNow)
    (a : Option (Fin 4)) (n : Option Nat) : Raised s (s.raise c a n) := by
  cases hk : defaultDispositions[c.idx] with
  | stopNow => exact absurd hk hc
  | warn =>
    rw [State.raise_warn a n ((State.disposition_of_defaults hs.defaults).trans hk)]
    exact .latch ..
  | haltRig =>
    by_cases hn : s.engine.nodeState = .running
    · rw [State.raise_unhalted a n hs.defaults hk hn]
      exact (Raised.latch ..).trans (.ownHaltEvent (s := s.latch c a n) hn _)
    · rw [State.raise_halted a n hs.defaults hk hs.inPass fun h => hn h.1]
      exact .latch ..

/-- A raised cause is latched, whatever its disposition does. -/
theorem State.latchedCause_raise (c : Cause) (a : Option (Fin 4)) (n : Option Nat) (s : State) :
    (s.raise c a n).latchedCause c = true :=
  (Calm.raise_of_latch ..).latchedCause (State.latchedCause_latch ..)

/-! ## The watch of a report (R30, R31) -/

section
variable {s t : State} (h : Raised s t)
include h

theorem Raised.axes : t.axes = s.axes := congrArg (·.axes) h.fixed

theorem Raised.table : t.roster.table = s.roster.table := congrArg (·.roster.table) h.fixed

end

theorem State.onEntry_entry {s : State} {i : Nat} {e : RosterEntry} (h : s.roster.table[i]? = some e)
    (f : RosterEntry → RosterEntry) : (s.onEntry i f).roster.table[i]? = some (f e) := by
  simp [State.onEntry, h]

theorem State.Passing.onEntry {s : State} (hs : s.Passing) (i : Nat) (f : RosterEntry → RosterEntry) :
    (s.onEntry i f).Passing := ⟨hs.inPass, hs.defaults⟩

/-- The entry of a station that has made a misaligned report, which is counted (R31). -/
def State.misaligned (i run : Nat) (s : State) : State :=
  (s.count .misaligned).onEntry i fun e => { e with misalignedRun := min 2 (run + 1) }

section
variable {s : State} {i : Nat} {e : RosterEntry} (he : s.roster.table[i]? = some e) {roll : Nat}

theorem State.checkAlignment_aligned (h : 0 ≤ s.tickOffset i roll ∧ s.tickOffset i roll ≤ 8) :
    s.checkAlignment i roll = s.onEntry i fun e => { e with misalignedRun := 0 } := if_pos h

include he

/-- R31: the second misaligned report in a row raises FRAME_SLIP. -/
theorem State.checkAlignment_misaligned (h : ¬ (0 ≤ s.tickOffset i roll ∧ s.tickOffset i roll ≤ 8)) :
    s.checkAlignment i roll = if e.misalignedRun = 1
      then (s.misaligned i e.misalignedRun).raise .frameSlip none (some i)
      else s.misaligned i e.misalignedRun := by
  rw [State.checkAlignment, if_neg h]
  simp only [he, Option.map_some, Option.getD_some]
  rfl

end

theorem Raised.peerHalted {s : State} (hs : s.Passing) (i : Nat) (b : Bool) : Raised s (s.peerHalted i b) :=
  RaiseClosed.of_ite (fun _ => .raise hs (by decide) ..) fun _ => .refl s

/-- The ramp start that causes raised in a pass bring is that of the own HALT (R119). -/
theorem Raised.rampStart_eq {s t : State} (h : Raised s t) (hs : s.engine.halt.rampStart = none)
    (ht : t.engine.halt.rampStart ≠ none) : t.engine.halt.rampStart = some s.engine.ownRampStart := by
  rcases h.halts.cases with ⟨halt, -⟩ | ⟨ramp, -⟩
  · exact absurd (halt ▸ hs) ht
  · exact ramp

/-- A halting cause leaves a node in RUNNING with a ramp start. -/
theorem State.raise_halts {s : State} {c : Cause} (hs : s.Passing) (hc : defaultDispositions[c.idx] = .haltRig)
    (hn : s.engine.nodeState = .running) (a : Option (Fin 4)) (n : Option Nat) :
    (s.raise c a n).engine.halt.rampStart ≠ none := by
  by_cases hr : s.engine.halt.rampStart = none
  · simp [(State.raise_rampStart a n hs.defaults hc hn hr).1]
  · rw [State.raise_halted a n hs.defaults hc hs.inPass fun h => hr h.2]
    exact hr

/-- The alignment check works on one entry's misaligned run, on its counter and by FRAME_SLIP (R31). -/
theorem State.checkAlignment_raised {s : State} (hs : s.Passing) (i roll : Nat) :
    ∃ v : State, v = { s with roster := v.roster, sup := { s.sup with counters := v.sup.counters } } ∧
      Raised v (s.checkAlignment i roll) := by
  by_cases h : 0 ≤ s.tickOffset i roll ∧ s.tickOffset i roll ≤ 8
  · rw [State.checkAlignment_aligned h]
    exact ⟨s.onEntry i _, rfl, .refl _⟩
  · rw [State.checkAlignment, if_neg h]
    generalize hr : (s.roster.table[i]?.map RosterEntry.misalignedRun).getD 0 = run
    have passing : (s.misaligned i run).Passing := ⟨hs.inPass, hs.defaults⟩
    exact ⟨s.misaligned i run, rfl,
      RaiseClosed.of_ite (fun _ => .raise passing (by decide) ..) fun _ => .refl _⟩

/-- The watch raises causes, and beside them it works on the roster and the counters. -/
theorem State.watch_raised {s : State} (hs : s.Passing) (i : Nat) (f : ReportFields) :
    ∃ v : State, v = { s with roster := v.roster, sup := { s.sup with counters := v.sup.counters } } ∧
      Raised v (s.watch i f) := by
  obtain ⟨v, hv, aligned⟩ := s.checkAlignment_raised hs i f.roll
  have passing : v.Passing := by rw [hv]; exact ⟨hs.inPass, hs.defaults⟩
  have unwatched := hs.onEntry i fun e => { e with watched := false }
  unfold State.watch
  dsimp only
  split
  · exact ⟨s, rfl, .refl s⟩
  · exact ⟨v, hv, aligned⟩
  · exact ⟨v, hv, aligned.andThen passing fun h => .peerHalted h ..⟩
  · exact ⟨_, rfl, .peerHalted unwatched ..⟩
  · exact ⟨_, rfl, .refl _⟩
  · exact ⟨_, rfl, .raise unwatched (by decide) ..⟩

/-- R30: a report of another pass, or of a state that no pass has, is a participant's absence. -/
theorem watchOutcome_absent {start : Nat} {f : ReportFields}
    (h : f.start ≠ start ∨ f.state.toNat < 6 ∨ f.state.toNat = 11 ∨ 13 ≤ f.state.toNat) :
    watchOutcome start f = .peerAbsent := by
  unfold watchOutcome
  split
  · rfl
  next same =>
    have codes := h.resolve_left same
    split
    case h_7 => rfl
    all_goals omega

/-- R30: a report of the node's own pass, by its state code. -/
theorem watchOutcome_same {start : Nat} {f : ReportFields} (h : f.start = start) :
    (f.state.toNat = 6 → watchOutcome start f = .arrived) ∧
    (f.state.toNat = 7 → watchOutcome start f = .aligned) ∧
    (f.state.toNat = 8 → watchOutcome start f = .alignedHalting) ∧
    (f.state.toNat = 9 ∨ f.state.toNat = 12 → watchOutcome start f = .peerHalted) ∧
    (f.state.toNat = 10 → watchOutcome start f = .peerEnded) := by
  refine ⟨fun hc => ?_, fun hc => ?_, fun hc => ?_, fun hc => ?_, fun hc => ?_⟩
  case refine_4 => rcases hc with hc | hc <;> simp [watchOutcome, h, hc]
  all_goals simp [watchOutcome, h, hc]

section
variable {s : State} {f : ReportFields} (i : Nat)

theorem State.watch_arrived (h : f.start = s.passStart) (hc : f.state.toNat = 6) : s.watch i f = s := by
  simp only [State.watch, (watchOutcome_same h).1 hc]

theorem State.watch_aligned (h : watchOutcome s.passStart f = .aligned) :
    s.watch i f = s.checkAlignment i f.roll := by
  simp only [State.watch, h]

theorem State.watch_alignedHalting (h : watchOutcome s.passStart f = .alignedHalting) :
    s.watch i f = (s.checkAlignment i f.roll).peerHalted i s.unhalted := by
  simp only [State.watch, h]

theorem State.watch_peerHalted (h : watchOutcome s.passStart f = .peerHalted) :
    s.watch i f = (s.onEntry i fun e => { e with watched := false }).peerHalted i s.unhalted := by
  simp only [State.watch, h]

theorem State.watch_peerEnded (h : watchOutcome s.passStart f = .peerEnded) :
    s.watch i f = s.onEntry i fun e => { e with watched := false } := by
  simp only [State.watch, h]

theorem State.watch_peerAbsent (h : watchOutcome s.passStart f = .peerAbsent) :
    s.watch i f = (s.onEntry i fun e => { e with watched := false }).raise .peerAbsent none (some i) := by
  simp only [State.watch, h]

end

/-! ## The alignment check with what PEER_HALTED follows it (R30, R31) -/

section
variable {s : State} (hs : s.Passing) {i : Nat} {e : RosterEntry} (he : s.roster.table[i]? = some e)
  {roll : Nat} (b : Bool)
include hs he

theorem State.aligned_report (h : 0 ≤ s.tickOffset i roll ∧ s.tickOffset i roll ≤ 8) :
    ((s.checkAlignment i roll).peerHalted i b).roster.table[i]? = some { e with misalignedRun := 0 } ∧
    (b = false → ((s.checkAlignment i roll).peerHalted i b).engine = s.engine ∧
      ((s.checkAlignment i roll).peerHalted i b).sup = s.sup) := by
  rw [State.checkAlignment_aligned h]
  refine ⟨?_, ?_⟩
  · rw [(Raised.peerHalted (hs.onEntry i _) i b).table]
    exact State.onEntry_entry he _
  · rintro rfl
    exact ⟨rfl, rfl⟩

theorem State.misaligned_report (h : ¬ (0 ≤ s.tickOffset i roll ∧ s.tickOffset i roll ≤ 8)) :
    let u := (s.checkAlignment i roll).peerHalted i b
    u.roster.table[i]? = some { e with misalignedRun := min 2 (e.misalignedRun + 1) } ∧
    u.sup.counter .misaligned = min 255 (s.sup.counter .misaligned + 1) ∧
    (e.misalignedRun = 1 → u.latchedCause .frameSlip = true ∧
      (s.engine.nodeState = .running → s.engine.halt.rampStart = none →
        u.engine.halt.rampStart = some s.engine.ownRampStart)) ∧
    (e.misalignedRun ≠ 1 → b = false → u.engine = s.engine ∧ u.sup.latched = s.sup.latched) := by
  have passing : (s.misaligned i e.misalignedRun).Passing := ⟨hs.inPass, hs.defaults⟩
  rw [State.checkAlignment_misaligned he h]
  generalize hc : (if e.misalignedRun = 1 then (s.misaligned i e.misalignedRun).raise .frameSlip none (some i)
    else s.misaligned i e.misalignedRun) = c
  have checked : Raised (s.misaligned i e.misalignedRun) c :=
    hc ▸ RaiseClosed.of_ite (fun _ => .raise passing (by decide) ..) fun _ => .refl _
  have told := Raised.peerHalted (checked.passing passing) i b
  have all := checked.trans told
  refine ⟨?_, ?_, fun h1 => ⟨?_, fun hn hr => ?_⟩, fun h1 hb => ?_⟩
  · rw [all.table]
    exact State.onEntry_entry (s := s.count .misaligned) he _
  · refine (all.counters 8 (by decide)).trans ?_
    exact Vector.getElem_set_self ..
  · rw [if_pos h1] at hc
    exact told.latched _ (hc ▸ State.latchedCause_raise ..)
  · rw [if_pos h1] at hc
    have halted : c.engine.halt.rampStart ≠ none := by
      rw [← hc]
      exact State.raise_halts (c := .frameSlip) passing rfl hn none (some i)
    rw [(told.halts.of_held (.inl halted)).1]
    exact checked.rampStart_eq hr halted
  · rw [if_neg h1] at hc
    subst hb hc
    exact ⟨rfl, rfl⟩

omit he in
theorem State.halting_report (hn : s.engine.nodeState = .running) (hr : s.engine.halt.rampStart = none) :
    ((s.checkAlignment i roll).peerHalted i true).latchedCause .peerHalted = true ∧
    ((s.checkAlignment i roll).peerHalted i true).engine.halt.rampStart = some s.engine.ownRampStart := by
  obtain ⟨v, hv, checked⟩ := s.checkAlignment_raised hs i roll
  have passing : v.Passing := by rw [hv]; exact ⟨hs.inPass, hs.defaults⟩
  have engine : v.engine = s.engine := by rw [hv]
  have halts := State.raise_halts (c := .peerHalted) (checked.passing passing) rfl
    (checked.nodeState.trans (by rw [engine, hn])) none (some i)
  refine ⟨State.latchedCause_raise .., ?_⟩
  rw [← engine] at hr ⊢
  exact (checked.trans (.peerHalted (checked.passing passing) i true)).rampStart_eq hr halts

end

/-- A cause raised by the report of an entry that ceases to be watched (R30). -/
theorem State.unwatched_report {s : State} (hs : s.Passing) {i : Nat} {e : RosterEntry}
    (he : s.roster.table[i]? = some e) {c : Cause} (hc : defaultDispositions[c.idx] = .haltRig) :
    let u := (s.onEntry i fun e => { e with watched := false }).raise c none (some i)
    u.latchedCause c = true ∧ u.roster.table[i]? = some { e with watched := false } ∧
    (s.engine.nodeState = .running ∧ s.engine.halt.rampStart = none →
      u.engine.halt.rampStart = some s.engine.ownRampStart) ∧
    (¬ (s.engine.nodeState = .running ∧ s.engine.halt.rampStart = none) → u.engine = s.engine) := by
  have passing := hs.onEntry i fun e => { e with watched := false }
  refine ⟨State.latchedCause_raise .., ?_, fun h => ?_, fun h => ?_⟩
  · rw [(Raised.raise passing (by simp [hc]) ..).table]
    exact State.onEntry_entry he _
  · exact (State.raise_rampStart (s := s.onEntry i _) _ _ hs.defaults hc h.1 h.2).1
  · rw [State.raise_halted (s := s.onEntry i _) _ _ hs.defaults hc hs.inPass h]
    rfl

/-! ## The watch by the report's code (R30) -/

theorem State.unhalted_iff {s : State} :
    s.unhalted = true ↔ s.engine.nodeState = .running ∧ s.engine.halt.rampStart = none := by
  simp [State.unhalted]

section
variable {s : State} {f : ReportFields}

/-- A running or halting participant's report is checked for its alignment. -/
theorem State.watch_checked (i : Nat) (h : f.start = s.passStart) (hc : f.state.toNat = 7 ∨ f.state.toNat = 8) :
    s.watch i f = (s.checkAlignment i f.roll).peerHalted i (f.state.toNat == 8 && s.unhalted) := by
  obtain ⟨-, aligned, halting, -, -⟩ := watchOutcome_same h
  rcases hc with hc | hc
  · rw [State.watch_aligned i (aligned hc), hc]
    rfl
  · rw [State.watch_alignedHalting i (halting hc), hc]
    rfl

variable {i : Nat} {e : RosterEntry} (he : s.roster.table[i]? = some e)
include he

theorem State.ended_report (h : f.start = s.passStart) (hc : f.state.toNat = 10) :
    (s.watch i f).engine = s.engine ∧ (s.watch i f).sup = s.sup ∧
    (s.watch i f).roster.table[i]? = some { e with watched := false } := by
  obtain ⟨-, -, -, -, ended⟩ := watchOutcome_same h
  rw [State.watch_peerEnded i (ended hc)]
  exact ⟨rfl, rfl, State.onEntry_entry he _⟩

variable (hs : s.Passing)
include hs

theorem State.halted_report (h : f.start = s.passStart) (hc : f.state.toNat = 9 ∨ f.state.toNat = 12) :
    (s.watch i f).roster.table[i]? = some { e with watched := false } ∧
    (s.engine.nodeState = .running ∧ s.engine.halt.rampStart = none →
      (s.watch i f).latchedCause .peerHalted = true ∧
      (s.watch i f).engine.halt.rampStart = some s.engine.ownRampStart) ∧
    (¬ (s.engine.nodeState = .running ∧ s.engine.halt.rampStart = none) →
      (s.watch i f).engine = s.engine ∧ (s.watch i f).sup = s.sup) := by
  obtain ⟨-, -, -, halted, -⟩ := watchOutcome_same h
  rw [State.watch_peerHalted i (halted hc)]
  by_cases hu : s.engine.nodeState = .running ∧ s.engine.halt.rampStart = none
  · rw [State.unhalted_iff.2 hu]
    obtain ⟨latched, unwatched, ramp, -⟩ := State.unwatched_report hs he (c := .peerHalted) rfl
    exact ⟨unwatched, fun hu => ⟨latched, ramp hu⟩, fun h => absurd hu h⟩
  · rw [Bool.eq_false_iff.2 fun h => hu (State.unhalted_iff.1 h)]
    exact ⟨State.onEntry_entry he _, fun h => absurd h hu, fun _ => ⟨rfl, rfl⟩⟩

theorem State.absent_report (h : f.start ≠ s.passStart ∨ f.state.toNat < 6 ∨ f.state.toNat = 11 ∨
    13 ≤ f.state.toNat) :
    (s.watch i f).latchedCause .peerAbsent = true ∧
    (s.watch i f).roster.table[i]? = some { e with watched := false } ∧
    (s.engine.nodeState = .running ∧ s.engine.halt.rampStart = none →
      (s.watch i f).engine.halt.rampStart = some s.engine.ownRampStart) ∧
    (¬ (s.engine.nodeState = .running ∧ s.engine.halt.rampStart = none) →
      (s.watch i f).engine = s.engine) := by
  rw [State.watch_peerAbsent i (watchOutcome_absent h)]
  exact State.unwatched_report hs he rfl

end

/-! ## The fields of a REPORT -/

/-- The roll count and the start frame share five bytes (12.1). -/
theorem readReport_eq (p : List Byte) : readReport p =
    { state := BitVec.ofNat 4 (byteAt p 0), roll := fieldAt p 1 5 / 2 ^ 20
      start := fieldAt p 1 5 % 2 ^ 20 } := by
  have below (i : Nat) : byteAt p i < 256 := (p[i]?.getD 0).isLt
  have : fieldAt p 1 5 < 2 ^ 40 := by
    have := below 1
    have := below 2
    have := below 3
    have := below 4
    have := below 5
    simp only [fieldAt, Nat.reduceAdd]
    omega
  have roll : fieldAt p 1 5 / 2 ^ 20 % 2 ^ 20 = fieldAt p 1 5 / 2 ^ 20 := Nat.mod_eq_of_lt (by omega)
  rw [readReport, roll]

/-- A watched station's report in a pass reaches the watch once it is recorded. -/
theorem exec_report_watched {s : State} {p : List Byte} {station : BitVec 5} {e : RosterEntry}
    (hs : s.line.state = .receiving) (hp : p.length = 24) (hc : s.roster.phase = .closed)
    (he : s.roster.table[station.toNat]? = some e) (hr : e.rank ≠ 0) (hw : e.watched = true)
    (hn : s.engine.nodeState.inPass = true) (t : Nat) :
    ∃ w : State, exec (.report t station p) s = .next (w.watch station.toNat (readReport p)) ∧
      w.roster.table[station.toNat]? = some (e.reported (max s.now t) (BitVec.ofNat 4 (byteAt p 0))) ∧
      w.clock = s.clock ∧ w.engine = s.engine ∧ w.sup = s.sup ∧ w.axes = s.axes := by
  refine ⟨(s.received t).onEntry station.toNat (.reported (max s.now t) (BitVec.ofNat 4 (byteAt p 0))), ?_,
    State.onEntry_entry (s := s.received t) he _, rfl, rfl, rfl, rfl⟩
  have watched : ((s.received t).engine.nodeState.inPass && e.watched) = true := by
    simp [State.received, hn, hw]
  rw [exec_report hs hp hc, State.takeReport_recorded (s := s.received t) he hr, if_pos watched,
    readReport_eq]
  rfl

/-- The place of a report against the ticks (R31). -/
theorem State.tickOffset_range {s : State} {i roll : Nat} :
    (0 ≤ s.tickOffset i roll ∧ s.tickOffset i roll ≤ 8) ↔
      16 * roll + 4 + i % 8 ≤ 16 * s.clock.roll + s.clock.tickIndex.getD 0 ∧
      16 * s.clock.roll + s.clock.tickIndex.getD 0 ≤ 16 * roll + 4 + i % 8 + 8 := by
  unfold State.tickOffset
  omega

end Sys2Proof.Machine

open Sys2Proof Sys2Proof.Machine

/-- Settles O31: by the outcome of the report's state and pass start (`watchOutcome`), an alignment check and a
cause raised in the pass (`State.raise_unhalted`, `State.raise_halted`). -/
theorem watchJudgesReports : Obligations.WatchJudgesReports := by
  unfold Obligations.WatchJudgesReports
  intro t station payload s e hs hc hl he hr hw hp hd
  obtain ⟨w, done, reported, clock, engine, sup, axes⟩ := exec_report_watched hs hl hc he hr hw hp t
  have passing : w.Passing := ⟨engine ▸ hp, (congrArg (·.dispositions) sup).trans hd⟩
  have code : (readReport payload).state.toNat = byteAt payload 0 % 16 := BitVec.toNat_ofNat ..
  have start : (readReport payload).start = fieldAt payload 1 5 % 2 ^ 20 := by rw [readReport_eq]
  have roll : (readReport payload).roll = fieldAt payload 1 5 / 2 ^ 20 := by rw [readReport_eq]
  have passStart : w.passStart = s.passStart := by simp only [State.passStart, engine]
  have range := State.tickOffset_range (s := w) (i := station.toNat) (roll := (readReport payload).roll)
  have arrived := w.watch_arrived (f := readReport payload) station.toNat
  have checked := w.watch_checked (f := readReport payload) station.toNat
  have ended := State.ended_report reported (f := readReport payload)
  have halted := State.halted_report reported (f := readReport payload) passing
  have absent := State.absent_report reported (f := readReport payload) passing
  obtain ⟨v, hv, raised⟩ := w.watch_raised passing station.toNat (readReport payload)
  have vAxes : v.axes = w.axes := by rw [hv]
  have vEngine : v.engine = w.engine := by rw [hv]
  rw [roll] at checked
  rw [code, start, passStart] at checked arrived ended halted absent
  rw [roll, clock] at range
  have unhalted : w.unhalted = true ↔ s.engine.nodeState = .running ∧ s.engine.halt.rampStart = none := by
    rw [State.unhalted_iff, engine]
  have quiet (h : byteAt payload 0 % 16 = 7 ∨ ¬ (s.engine.nodeState = .running ∧
      s.engine.halt.rampStart = none)) : (byteAt payload 0 % 16 == 8 && w.unhalted) = false := by
    rcases h with h | h
    · rw [h]
      rfl
    · rw [Bool.eq_false_iff.2 fun k => h (unhalted.1 k), Bool.and_false]
  rw [← engine] at unhalted quiet
  rw [← engine, ← sup]
  refine ⟨_, done, ?_, ?_, fun same h => ?_, fun same h aligned => ?_, fun same h late => ?_,
    fun same h hu => ?_, halted, fun same h => ?_, absent⟩
  · rw [raised.axes, vAxes, axes]
  · rw [raised.nodeState, vEngine]
  · rw [arrived same h]
    exact ⟨⟨rfl, rfl⟩, reported⟩
  · rw [checked same h]
    obtain ⟨leaves, nothing⟩ := State.aligned_report passing reported (byteAt payload 0 % 16 == 8 && w.unhalted)
      (range.2 aligned)
    exact ⟨leaves, fun hq => nothing (quiet hq)⟩
  · rw [checked same h]
    obtain ⟨leaves, counted, slips, nothing⟩ := State.misaligned_report passing reported
      (byteAt payload 0 % 16 == 8 && w.unhalted) (mt range.1 late)
    exact ⟨leaves, counted, fun h1 => ⟨(slips h1).1, fun hu => (slips h1).2 hu.1 hu.2⟩,
      fun h1 hq => nothing h1 (quiet hq)⟩
  · rw [checked same (.inr h), h, unhalted.2 hu]
    exact State.halting_report passing hu.1 hu.2
  · obtain ⟨engine, sup, leaves⟩ := ended same h
    exact ⟨⟨engine, sup⟩, leaves⟩

end

section
/-! PROOFS. What an evaluation of the axes raises in a pass (R73, R81, R83), as the tick statements say it. -/

namespace Sys2Proof.Machine

/-! ## The marks of evaluations in supervision -/

/-- What evaluations write in supervision: SOFT_LIMIT_CLAMP with its axis set, ARITH_OVERFLOW, and the count
and the record of the arithmetic exceptions. -/
structure EvalMarks where
  clampFlag : Bool
  clampSet : BitVec 4
  arithFlag : Bool
  count : Nat
  record : Option ExceptionRecord

def State.evalMarks (s : State) : EvalMarks where
  clampFlag := s.latchedCause .softLimitClamp
  clampSet := s.sup.axisSets[4]
  arithFlag := s.latchedCause .arithOverflow
  count := s.sup.exceptionCount
  record := s.sup.exception

/-- From `m` to `m'` the exceptions `found` and the clamps of the axes `clamps` have been marked. -/
structure EvalMarks.Taken (occasion : Occasion) (tick : Nat) (found : List (ExceptionCode × Fin 4 × Option Nat))
    (clamps : List (Fin 4)) (m m' : EvalMarks) : Prop where
  clamped : ∀ a ∈ clamps, m'.clampFlag = true ∧ m'.clampSet.getLsbD a.val = true
  flagKept : m.clampFlag = true → m'.clampFlag = true
  setKept : ∀ a : Fin 4, m.clampSet.getLsbD a.val = true → m'.clampSet.getLsbD a.val = true
  unclamped : clamps = [] → m'.clampFlag = m.clampFlag ∧ m'.clampSet = m.clampSet
  arith : m'.arithFlag = (m.arithFlag || !found.isEmpty)
  count : m'.count = if found = [] then m.count else min 255 (m.count + found.length)
  recordKept : found = [] ∨ m.record ≠ none → m'.record = m.record
  recordFirst : ∀ code a key later, m.record = none → found = (code, a, key) :: later →
    m'.record.map (fun x => (x.code, x.track, x.occasion, x.tick)) = some (code, a, occasion, tick) ∧
    ∀ k, key = some k → m'.record.map ExceptionRecord.keyIndex = some k

namespace EvalMarks.Taken
variable {occasion : Occasion} {tick : Nat} {found found' : List (ExceptionCode × Fin 4 × Option Nat)}
  {clamps clamps' : List (Fin 4)} {m m' m'' : EvalMarks}

theorem refl (m : EvalMarks) : Taken occasion tick [] [] m m where
  clamped := by simp
  flagKept := id
  setKept _ := id
  unclamped _ := ⟨rfl, rfl⟩
  arith := by simp
  count := rfl
  recordKept _ := rfl
  recordFirst := by simp

theorem arith_of_nil (h : Taken occasion tick found clamps m m') (hf : found = []) :
    m'.arithFlag = m.arithFlag := by simp [h.arith, hf]

theorem arith_of_ne_nil (h : Taken occasion tick found clamps m m') (hf : found ≠ []) :
    m'.arithFlag = true := by simp [h.arith, hf]

theorem append (h : Taken occasion tick found clamps m m') (k : Taken occasion tick found' clamps' m' m'') :
    Taken occasion tick (found ++ found') (clamps ++ clamps') m m'' where
  clamped a ha := by
    rcases List.mem_append.1 ha with ha | ha
    · exact ⟨k.flagKept (h.clamped a ha).1, k.setKept a (h.clamped a ha).2⟩
    · exact k.clamped a ha
  flagKept := k.flagKept ∘ h.flagKept
  setKept a := k.setKept a ∘ h.setKept a
  unclamped hc := by
    obtain ⟨hc, kc⟩ := List.append_eq_nil_iff.1 hc
    exact ⟨(k.unclamped kc).1.trans (h.unclamped hc).1, (k.unclamped kc).2.trans (h.unclamped hc).2⟩
  arith := by
    rw [k.arith, h.arith]
    cases found <;> simp
  count := by
    rw [k.count, h.count, List.length_append]
    by_cases hf : found = [] <;> by_cases kf : found' = [] <;> simp [hf, kf]
    omega
  recordKept hr := by
    by_cases hf : found = []
    · subst hf
      have same := h.recordKept (.inl rfl)
      exact (k.recordKept (by rw [same]; exact hr)).trans same
    · have held : m.record ≠ none := hr.resolve_left (by simp [hf])
      have same := h.recordKept (.inr held)
      exact (k.recordKept (.inr (same ▸ held))).trans same
  recordFirst code a key later hn hl := by
    cases found with
    | nil => exact k.recordFirst code a key later ((h.recordKept (.inl rfl)).trans hn) hl
    | cons x xs =>
      obtain ⟨rfl, -⟩ := List.cons.inj hl
      have first := h.recordFirst code a key xs hn rfl
      have held : m'.record ≠ none := fun hm => by simp [hm] at first
      rwa [k.recordKept (.inr held)]

/-- One arithmetic exception (R83). -/
theorem of_exception {code : ExceptionCode} {a : Fin 4} {key : Option Nat}
    (hc : m'.clampFlag = m.clampFlag ∧ m'.clampSet = m.clampSet) (ha : m'.arithFlag = true)
    (hn : m'.count = min 255 (m.count + 1)) (hk : m.record ≠ none → m'.record = m.record)
    (hf : m.record = none → m'.record.map (fun x => (x.code, x.track, x.occasion, x.tick)) =
      some (code, a, occasion, tick) ∧ ∀ k, key = some k → m'.record.map ExceptionRecord.keyIndex = some k) :
    Taken occasion tick [(code, a, key)] [] m m' where
  clamped := by simp
  flagKept h := hc.1.trans h
  setKept a h := hc.2 ▸ h
  unclamped _ := hc
  arith := by simp [ha]
  count := by simp [hn]
  recordKept h := hk (h.resolve_left (by simp))
  recordFirst code' a' key' later h hl := by
    obtain ⟨he, -⟩ := List.cons.inj hl
    cases he
    exact hf h

/-- One clamp (R81). -/
theorem of_clamp {a : Fin 4} (hf : m'.clampFlag = true) (hs : m'.clampSet = m.clampSet ||| 1#4 <<< a.val)
    (hr : m'.arithFlag = m.arithFlag ∧ m'.count = m.count ∧ m'.record = m.record) :
    Taken occasion tick [] [a] m m' where
  clamped b hb := by
    obtain rfl := List.mem_singleton.1 hb
    refine ⟨hf, ?_⟩
    simp [hs, b.isLt]
  flagKept _ := hf
  setKept b h := by rw [hs, BitVec.getLsbD_or, h, Bool.true_or]
  unclamped h := by simp at h
  arith := by simp [hr.1]
  count := hr.2.1
  recordKept _ := hr.2.2
  recordFirst := by simp

end EvalMarks.Taken

/-! ## Raising in a pass and the marks -/

/-- An own HALT leaves supervision but for its counters. -/
theorem State.ownHaltEvent_sup (code : Byte) (s : State) :
    ∃ k, (s.ownHaltEvent code).sup = { s.sup with counters := k } := by
  by_cases hr : s.engine.halt.rampStart = none
  · obtain ⟨q, k, -, told⟩ := State.offer_flushed (e := s.ownHaltEntry code) rfl (s.haltRecorded code)
    rw [State.ownHaltEvent_eq hr]
    exact ⟨k, congrArg State.sup told.fixed⟩
  · obtain ⟨ramp, hr⟩ := Option.ne_none_iff_exists'.1 hr
    rw [State.ownHaltEvent, hr]
    exact ⟨s.sup.counters, rfl⟩

/-- In a pass a raised cause writes supervision by its latch and, with an own HALT, the counters. -/
theorem State.Passing.raise_sup {s : State} (hs : s.Passing) {c : Cause}
    (hc : defaultDispositions[c.idx] ≠ .stopNow) (a : Option (Fin 4)) (n : Option Nat) :
    ∃ k, (s.raise c a n).sup = { s.sup.latch c a n with counters := k } := by
  have disposition : s.sup.disposition c = defaultDispositions[c.idx] :=
    State.disposition_of_defaults hs.defaults
  cases hk : defaultDispositions[c.idx] with
  | stopNow => exact absurd hk hc
  | warn =>
    rw [State.raise_warn a n (disposition.trans hk)]
    exact ⟨_, rfl⟩
  | haltRig =>
    by_cases hn : s.engine.nodeState = .running
    · rw [State.raise_unhalted a n hs.defaults hk hn]
      exact State.ownHaltEvent_sup _ (s.latch c a n)
    · rw [State.raise_halted a n hs.defaults hk hs.inPass fun h => hn h.1]
      exact ⟨_, rfl⟩

theorem Supervision.addAxis_axisSets_of_ne {c : Cause} {k : Fin 6} (h : c.axisSlot ≠ some k) (a : Option (Fin 4))
    (u : Supervision) : (u.addAxis c a).axisSets[k] = u.axisSets[k] := by
  unfold Supervision.addAxis
  split
  next j b hj =>
    exact Vector.getElem_set_ne j.isLt k.isLt fun hk => h (hj.trans (congrArg some (Fin.ext hk)))
  all_goals rfl

theorem State.Passing.raise_latched {s : State} (hs : s.Passing) {c : Cause}
    (hc : defaultDispositions[c.idx] ≠ .stopNow) (a : Option (Fin 4)) (n : Option Nat) {k : Cause} (h : k ≠ c) :
    (s.raise c a n).latchedCause k = s.latchedCause k := by
  obtain ⟨counters, sup⟩ := hs.raise_sup hc a n
  rw [State.latchedCause, sup]
  exact State.latchedCause_latch_of_ne h a n s

/-- A cause that no evaluation raises leaves the evaluations' marks. -/
theorem State.Passing.raise_evalMarks {s : State} (hs : s.Passing) {c : Cause}
    (hc : defaultDispositions[c.idx] ≠ .stopNow) (h : c ≠ .softLimitClamp ∧ c ≠ .arithOverflow)
    (a : Option (Fin 4)) (n : Option Nat) : (s.raise c a n).evalMarks = s.evalMarks := by
  obtain ⟨counters, sup⟩ := hs.raise_sup hc a n
  have slot : c.axisSlot ≠ some 4 := by
    have := h.1
    cases c <;> simp_all [Cause.axisSlot]
  have sets : (s.sup.latch c a n).axisSets[4] = s.sup.axisSets[4] := by
    rw [Supervision.latch_axisSets]
    exact Supervision.addAxis_axisSets_of_ne slot a s.sup
  have fixed := Supervision.latch_eq c a n s.sup
  simp only [State.evalMarks, hs.raise_latched hc a n h.1.symm, hs.raise_latched hc a n h.2.symm, sup, sets,
    EvalMarks.mk.injEq, true_and]
  exact ⟨congrArg (·.exceptionCount) fixed, congrArg (·.exception) fixed⟩

/-! ## One evaluation -/

/-- The first exception is recorded, with a free key index beyond the last key; later ones leave the record. -/
theorem State.recordException_eq (code : ExceptionCode) (a : Fin 4) (key : Option Nat) (occasion : Occasion)
    (tick : Nat) (s : State) : ∃ e free, s.recordException code a key occasion tick =
      { s with sup := { s.sup with exception := e }, free := free } ∧
      (s.sup.exception ≠ none → e = s.sup.exception) ∧
      (s.sup.exception = none →
        e.map (fun x => (x.code, x.track, x.occasion, x.tick)) = some (code, a, occasion, tick) ∧
        ∀ k, key = some k → e.map ExceptionRecord.keyIndex = some k) := by
  unfold State.recordException
  split
  next hn =>
    have empty : s.sup.exception = none := Option.isNone_iff_eq_none.1 hn
    cases key with
    | some k => exact ⟨_, _, rfl, fun h => absurd empty h, fun _ => ⟨rfl, fun _ => id⟩⟩
    | none => exact ⟨_, _, rfl, fun h => absurd empty h, fun _ => ⟨rfl, nofun⟩⟩
  next hn =>
    have held : s.sup.exception ≠ none := fun h => hn (Option.isNone_iff_eq_none.2 h)
    exact ⟨_, _, rfl, fun _ => rfl, fun h => absurd h held⟩

/-- From `s` to `t` an evaluation has raised the exceptions `found` and the clamps of the axes `clamps`. -/
structure Evaluated (tick : Nat) (found : List (ExceptionCode × Fin 4 × Option Nat)) (clamps : List (Fin 4))
    (s t : State) : Prop where
  raised : Raised s t
  taken : EvalMarks.Taken .pass tick found clamps s.evalMarks t.evalMarks
  unclamped : clamps = [] → t.engine = s.engine
  halts : clamps ≠ [] → s.engine.nodeState = .running → s.engine.halt.rampStart = none →
    t.engine.halt.rampStart = some s.engine.ownRampStart ∧ t.engine.halt.cause = some ⟨11, s.ownNumber⟩

namespace Evaluated
variable {tick : Nat} {found found' : List (ExceptionCode × Fin 4 × Option Nat)}
  {clamps clamps' : List (Fin 4)} {s t u : State}

theorem refl (s : State) : Evaluated tick [] [] s s := ⟨.refl s, .refl _, fun _ => rfl, fun h => absurd rfl h⟩

theorem append (h : Evaluated tick found clamps s t) (k : Evaluated tick found' clamps' t u) :
    Evaluated tick (found ++ found') (clamps ++ clamps') s u where
  raised := h.raised.trans k.raised
  taken := h.taken.append k.taken
  unclamped hc := by
    obtain ⟨hc, kc⟩ := List.append_eq_nil_iff.1 hc
    exact (k.unclamped kc).trans (h.unclamped hc)
  halts hc hn hr := by
    by_cases hf : clamps = []
    · have engine := h.unclamped hf
      have number : t.ownNumber = s.ownNumber := congrArg (·.ownNumber) h.raised.fixed
      have halts := k.halts (by simpa [hf] using hc) (engine ▸ hn) (engine ▸ hr)
      rwa [engine, number] at halts
    · have halts := h.halts hf hn hr
      rw [(k.raised.halts.of_held (.inl (by simp [halts.1]))).1]
      exact halts

/-- R83. -/
theorem arithException (hs : s.Passing) (code : ExceptionCode) (a : Fin 4) (key : Option Nat) :
    Evaluated tick [(code, a, key)] [] s (s.arithException code a key .pass tick) := by
  rw [State.arithException, State.raise_warn _ _ (State.disposition_of_defaults hs.defaults)]
  have latched : (s.latch .arithOverflow none none).latchedCause .arithOverflow = true :=
    State.latchedCause_latch ..
  have unclamped := State.latchedCause_latch_of_ne (c := .arithOverflow) (k := .softLimitClamp) (by decide)
    none none s
  have raised := Raised.latch .arithOverflow none none s
  have marks : (s.latch .arithOverflow none none).sup.axisSets[4] = s.sup.axisSets[4] ∧
      (s.latch .arithOverflow none none).sup.exceptionCount = s.sup.exceptionCount ∧
      (s.latch .arithOverflow none none).sup.exception = s.sup.exception ∧
      (s.latch .arithOverflow none none).engine = s.engine := ⟨rfl, rfl, rfl, rfl⟩
  generalize s.latch .arithOverflow none none = u at latched unclamped raised marks ⊢
  obtain ⟨sets, count, exception, engine⟩ := marks
  obtain ⟨e, free, recorded, kept, first⟩ := u.recordException_eq code a key .pass tick
  rw [recorded]
  rw [exception] at kept first
  exact ⟨raised.trans (.of_sup rfl fun _ => id),
    .of_exception ⟨unclamped, sets⟩ latched (congrArg bump8 count) kept first, fun _ => engine,
    fun h => absurd rfl h⟩

/-- R81. -/
theorem clamp (hs : s.Passing) (a : Fin 4) :
    Evaluated tick [] [a] s (s.raise .softLimitClamp (some a) none) where
  raised := .raise hs (by decide) ..
  taken := by
    obtain ⟨counters, sup⟩ := hs.raise_sup (c := .softLimitClamp) (by decide) (some a) none
    have fixed := Supervision.latch_eq .softLimitClamp (some a) none s.sup
    refine .of_clamp (State.latchedCause_raise ..) ?_ ⟨?_, ?_, ?_⟩
    · show (s.raise .softLimitClamp (some a) none).sup.axisSets[4] = _
      rw [sup]
      show (s.sup.latch .softLimitClamp (some a) none).axisSets[4] = _
      rw [Supervision.latch_axisSets]
      exact Vector.getElem_set_self ..
    · exact hs.raise_latched (by decide) _ _ (by decide)
    · exact (congrArg Supervision.exceptionCount sup).trans (congrArg (·.exceptionCount) fixed)
    · exact (congrArg Supervision.exception sup).trans (congrArg (·.exception) fixed)
  unclamped h := by simp at h
  halts _ hn hr := State.raise_rampStart _ _ hs.defaults rfl hn hr

theorem of_ite {p : Prop} [Decidable p] {l l' : List (ExceptionCode × Fin 4 × Option Nat)}
    (ht : p → Evaluated tick l clamps s t) (hu : ¬ p → Evaluated tick l' clamps' s u) :
    Evaluated tick (if p then l else l') (if p then clamps else clamps') s (if p then t else u) := by
  split
  · exact ht ‹_›
  · exact hu ‹_›

end Evaluated

/-- The arithmetic exceptions of one axis's evaluation, in the order of R73. -/
def AxisEval.exceptions (ev : AxisEval) (a : Fin 4) : List (ExceptionCode × Fin 4 × Option Nat) :=
  (if ev.overflowEval then [(.overflowEval, a, ev.keyIndex)] else []) ++
    (if ev.overflowScale then [(.overflowScale, a, ev.keyIndex)] else [])

theorem Evaluated.raiseAxisEval {s : State} (hs : s.Passing) (a : Fin 4) (ev : AxisEval) (tick : Nat) :
    Evaluated tick (ev.exceptions a) (if ev.clamped then [a] else []) s (s.raiseAxisEval a ev .pass tick) := by
  have excepted (code : ExceptionCode) (b : Bool) {t : State} (ht : t.Passing) :
      Evaluated tick (if b then [(code, a, ev.keyIndex)] else []) [] t
        (if b then t.arithException code a ev.keyIndex .pass tick else t) := by
    have done := Evaluated.of_ite (p := b) (tick := tick) (fun _ => .arithException ht code a ev.keyIndex)
      fun _ => .refl t
    rwa [ite_self] at done
  have first := excepted .overflowEval ev.overflowEval hs
  have second := excepted .overflowScale ev.overflowScale (first.raised.passing hs)
  have both := first.append second
  have clamped := Evaluated.of_ite (p := ev.clamped) (tick := tick)
    (fun _ => .clamp (both.raised.passing hs) a) fun _ => .refl _
  rw [ite_self] at clamped
  have all := both.append clamped
  rwa [List.append_nil, List.nil_append] at all

/-- The exceptions that an evaluation of the axes raises. -/
def exceptionsOf (evs : Fin 4 → Option AxisEval) (axes : List (Fin 4)) :
    List (ExceptionCode × Fin 4 × Option Nat) :=
  axes.flatMap fun a => ((evs a).map fun ev => ev.exceptions a).getD []

/-- The axes that it clamps. -/
def clampsOf (evs : Fin 4 → Option AxisEval) (axes : List (Fin 4)) : List (Fin 4) :=
  axes.filter fun a => (evs a).any AxisEval.clamped

section
variable {evs : Fin 4 → Option AxisEval} {a : Fin 4} (axes : List (Fin 4))

theorem exceptionsOf_cons_none (h : evs a = none) : exceptionsOf evs (a :: axes) = exceptionsOf evs axes := by
  simp [exceptionsOf, h]

theorem clampsOf_cons_none (h : evs a = none) : clampsOf evs (a :: axes) = clampsOf evs axes := by
  simp [clampsOf, h]

variable {ev : AxisEval} (h : evs a = some ev)
include h

theorem exceptionsOf_cons_some :
    exceptionsOf evs (a :: axes) = ev.exceptions a ++ exceptionsOf evs axes := by
  simp [exceptionsOf, h]

theorem clampsOf_cons_some :
    clampsOf evs (a :: axes) = (if ev.clamped then [a] else []) ++ clampsOf evs axes := by
  cases hc : ev.clamped <;> simp [clampsOf, h, hc]

end

/-- What an evaluation raises, the earlier axis first. -/
theorem Evaluated.raiseEval {s : State} (hs : s.Passing) (evs : Vector (Option AxisEval) 4) (tick : Nat) :
    Evaluated tick (exceptionsOf (fun a => evs[a]) axisOrder) (clampsOf (fun a => evs[a]) axisOrder) s
      (s.raiseEval evs .pass tick) := by
  unfold State.raiseEval
  induction axisOrder generalizing s with
  | nil => exact .refl s
  | cons a axes ih =>
    rw [List.foldl_cons]
    cases he : evs[a] with
    | none =>
      rw [exceptionsOf_cons_none (evs := fun a => evs[a]) axes he,
        clampsOf_cons_none (evs := fun a => evs[a]) axes he]
      exact ih hs
    | some ev =>
      rw [exceptionsOf_cons_some (evs := fun a => evs[a]) axes he,
        clampsOf_cons_some (evs := fun a => evs[a]) axes he]
      have first := Evaluated.raiseAxisEval hs a ev tick
      exact first.append (ih (first.raised.passing hs))

theorem mem_clampsOf {evs : Fin 4 → Option AxisEval} {a : Fin 4} :
    a ∈ clampsOf evs axisOrder ↔ ∃ ev, evs a = some ev ∧ ev.clamped = true := by
  rw [clampsOf, List.mem_filter, and_iff_right (mem_axisOrder a)]
  cases evs a <;> simp

/-- The claims' account of what an evaluation raises, from the marks. -/
theorem State.raisedBy_of_taken {evs : Fin 4 → Option AxisEval} {occasion : Occasion} {tick : Nat} {s u : State}
    (h : EvalMarks.Taken occasion tick (exceptionsOf evs axisOrder) (clampsOf evs axisOrder)
      s.evalMarks u.evalMarks) : s.raisedBy evs occasion tick u := by
  have found : exceptionsOf evs axisOrder = (List.finRange 4).flatMap fun a =>
      match evs a with
      | some ev => (if ev.overflowEval then [(.overflowEval, a, ev.keyIndex)] else []) ++
          (if ev.overflowScale then [(.overflowScale, a, ev.keyIndex)] else [])
      | none => [] := by
    refine List.flatMap_congr fun a _ => ?_
    cases evs a <;> rfl
  rw [found] at h
  refine ⟨fun a ev he hc => h.clamped a (mem_clampsOf.2 ⟨ev, he, hc⟩), fun hc => h.unclamped ?_,
    fun hf => ⟨h.arith_of_nil hf, h.count.trans (if_pos hf)⟩,
    fun hf => ⟨h.arith_of_ne_nil hf, h.count.trans (if_neg hf)⟩, h.recordKept, h.recordFirst⟩
  refine List.eq_nil_iff_forall_not_mem.2 fun a ha => ?_
  obtain ⟨ev, he, hx⟩ := mem_clampsOf.1 ha
  simp [hc a ev he] at hx

end Sys2Proof.Machine
end

section
/-! PROOFS. What the work of a pass tick hands to the channels, the levels and the cue lines (R108, R134, R146,
R170, R176, R177). -/

namespace Sys2Proof.Machine

/-! ## A target at one channel (R134 to R142) -/

/-- A deficit plan is counted. -/
def AxisChannel.countDeficit (plan : Option (Plan × Bool)) (x : AxisChannel) : AxisChannel :=
  if plan.any Prod.snd then { x with deficitTicks := bump8 x.deficitTicks } else x

/-- The channel's pulses that inputs in force do not forbid (R141, R142). -/
def Supervision.suppressed (u : Supervision) (a : Fin 4) (x : AxisChannel) : AxisChannel :=
  let x := if u.driveInForce a then { x with plan := none } else x
  let x := if u.limitInForce a .min then x.dropPulses false else x
  if u.limitInForce a .max then x.dropPulses true else x

/-- The plan that a channel forms of a target. -/
def AxisChannel.planOf (now : Nat) (store : MoveStore) (a : Fin 4) (target : Int) (duration : Nat)
    (x : AxisChannel) : Option (Plan × Bool) :=
  formPlan now x (guardTarget (store.softRange a) x.commanded.toInt target) duration

/-- Channel `a` of `s` once it has been handed a target. -/
def State.channelTakes (a : Fin 4) (target : Int) (duration : Nat) (s : State) : AxisChannel :=
  let x := s.axes[a]
  let plan := x.planOf s.now s.store a target duration
  if s.store.axisDisabled a then x else s.sup.suppressed a ((x.countDeficit plan).replacePlan s.now plan)

theorem AxisChannel.dropPulses_fixed (b : Bool) (x : AxisChannel) :
    (x.dropPulses b).commanded = x.commanded ∧ (x.dropPulses b).openCapture = x.openCapture := by
  unfold AxisChannel.dropPulses
  split
  · split <;> exact ⟨rfl, rfl⟩
  · exact ⟨rfl, rfl⟩

theorem AxisChannel.settleDir_fixed (now : Nat) (x : AxisChannel) :
    (x.settleDir now).commanded = x.commanded ∧ (x.settleDir now).openCapture = x.openCapture := by
  unfold AxisChannel.settleDir
  dsimp only
  split <;> exact ⟨rfl, rfl⟩

theorem AxisChannel.replacePlan_fixed (now : Nat) (p : Option (Plan × Bool)) (x : AxisChannel) :
    (x.replacePlan now p).commanded = x.commanded ∧ (x.replacePlan now p).openCapture = x.openCapture := by
  unfold AxisChannel.replacePlan
  split
  · exact ⟨rfl, rfl⟩
  · exact AxisChannel.settleDir_fixed ..

theorem AxisChannel.countDeficit_fixed (p : Option (Plan × Bool)) (x : AxisChannel) :
    (x.countDeficit p).commanded = x.commanded ∧ (x.countDeficit p).openCapture = x.openCapture := by
  unfold AxisChannel.countDeficit
  split <;> exact ⟨rfl, rfl⟩

theorem Supervision.suppressed_fixed (u : Supervision) (a : Fin 4) (x : AxisChannel) :
    (u.suppressed a x).commanded = x.commanded ∧ (u.suppressed a x).openCapture = x.openCapture := by
  have drop (p : Prop) [Decidable p] (b : Bool) (x : AxisChannel) :
      (if p then x.dropPulses b else x).commanded = x.commanded ∧
        (if p then x.dropPulses b else x).openCapture = x.openCapture := by
    split
    · exact x.dropPulses_fixed b
    · exact ⟨rfl, rfl⟩
  unfold Supervision.suppressed
  rw [(drop ..).1, (drop ..).2, (drop ..).1, (drop ..).2]
  split <;> exact ⟨rfl, rfl⟩

/-- A target leaves the commanded position and the frame that the channel holds. -/
theorem State.channelTakes_fixed (a : Fin 4) (target : Int) (duration : Nat) (s : State) :
    (s.channelTakes a target duration).commanded = s.axes[a].commanded ∧
    (s.channelTakes a target duration).openCapture = s.axes[a].openCapture := by
  unfold State.channelTakes
  dsimp only
  split
  · exact ⟨rfl, rfl⟩
  · rw [(Supervision.suppressed_fixed ..).1, (Supervision.suppressed_fixed ..).2,
      (AxisChannel.replacePlan_fixed ..).1, (AxisChannel.replacePlan_fixed ..).2]
    exact AxisChannel.countDeficit_fixed ..

theorem State.onAxis_onAxis (a : Fin 4) (f g : AxisChannel → AxisChannel) (s : State) :
    (s.onAxis a f).onAxis a g = s.onAxis a fun x => g (f x) := by
  simp [State.onAxis]

theorem State.onAxis_ite (b : Bool) (a : Fin 4) (f : AxisChannel → AxisChannel) (s : State) :
    (if b then s.onAxis a f else s) = s.onAxis a fun x => if b then f x else x := by
  cases b
  · simp [State.onAxis]
  · rfl

theorem State.suppress_eq (a : Fin 4) (s : State) : s.suppress a = s.onAxis a (s.sup.suppressed a) := by
  unfold State.suppress
  dsimp only
  rw [State.onAxis_ite, State.onAxis_ite, State.onAxis_ite, State.onAxis_onAxis, State.onAxis_onAxis]
  rfl

/-! ## The outputs of a tick -/

/-- The blocks that a tick's work hands its results to. -/
def State.withOutputs (axes : Vector AxisChannel 4) (holds : Vector Int 4) (levels : Vector LevelChannel 2)
    (cues : Vector CueLine 8) (s : State) : State :=
  { s with axes, levels, cues, engine := { s.engine with holdTargets := holds } }

theorem Raised.withOutputs {s t : State} (h : Raised s t) (axes : Vector AxisChannel 4) (holds : Vector Int 4)
    (levels : Vector LevelChannel 2) (cues : Vector CueLine 8) :
    Raised (s.withOutputs axes holds levels cues) (t.withOutputs axes holds levels cues) where
  fixed := congrArg (State.withOutputs axes holds levels cues) h.fixed
  latched := h.latched
  counters := h.counters
  halts := ⟨h.halts.of_held, h.halts.cases⟩

section
variable {s t : State} (h : Raised s t)
include h

theorem Raised.holdTargets : t.engine.holdTargets = s.engine.holdTargets :=
  congrArg (·.engine.holdTargets) h.fixed

theorem Raised.levels : t.levels = s.levels := congrArg (·.levels) h.fixed

theorem Raised.cues : t.cues = s.cues := congrArg (·.cues) h.fixed

end

/-- Causes raised between two changes of one channel. -/
theorem Raised.onAxis_outputs {s u : State} {a : Fin 4} {g : AxisChannel → AxisChannel}
    (h : Raised (s.onAxis a g) u) (f : AxisChannel → AxisChannel) :
    Raised (s.withOutputs (s.axes.set a (f (g s.axes[a]))) s.engine.holdTargets s.levels s.cues)
      (u.onAxis a f) := by
  have outputs : Raised ((s.onAxis a g).withOutputs (u.axes.set a (f u.axes[a])) u.engine.holdTargets u.levels
      u.cues) (u.onAxis a f) := h.withOutputs ..
  have axes : u.axes.set a (f u.axes[a]) = s.axes.set a (f (g s.axes[a])) := by
    rw [h.axes]
    simp
  rw [axes, h.holdTargets, h.levels, h.cues] at outputs
  exact outputs

/-! ## The following check (R146) -/

section
variable {s : State} (hs : s.Passing) (a : Fin 4)
include hs

theorem State.followingCheck_bad (h : s.followsBadly a) :
    s.followingCheck a = s.raise .followingError (some a) none := by
  obtain ⟨plays, ratio, setup, held, limit⟩ := h
  have active : ¬ (s.engine.nodeState = .settling ∨ s.engine.nodeState = .excluded) := by
    have inPass := hs.inPass
    rintro (h | h) <;> simp [h, NodeState.inPass] at inPass
  rw [State.followingCheck, if_neg active, if_pos ⟨plays, ratio⟩, held]
  exact if_pos limit

omit hs in
/-- The check raises FOLLOWING_ERROR or does nothing. -/
theorem State.followingCheck_cases :
    s.followingCheck a = s ∨ s.followingCheck a = s.raise .followingError (some a) none := by
  unfold State.followingCheck
  split
  · exact .inl rfl
  · split
    · split
      · split
        · exact .inr rfl
        · exact .inl rfl
      · exact .inl rfl
    · exact .inl rfl

theorem Raised.followingCheck : Raised s (s.followingCheck a) := by
  rcases State.followingCheck_cases a with h | h <;> rw [h]
  · exact .refl s
  · exact .raise hs (by decide) ..

theorem State.followingCheck_evalMarks : (s.followingCheck a).evalMarks = s.evalMarks := by
  rcases State.followingCheck_cases a with h | h <;> rw [h]
  exact hs.raise_evalMarks (by decide) (by decide) ..

end

/-! ## A target handed in a pass -/

theorem State.channelTakes_of_raised {s t : State} (h : Raised s t) (a : Fin 4) (target : Int) (duration : Nat) :
    t.channelTakes a target duration = s.channelTakes a target duration := by
  rw [h.fixed]
  rfl

/-- A deficit plan is counted and raises STEP_DEFICIT (R139). -/
def State.deficitRaised (a : Fin 4) (plan : Option (Plan × Bool)) (s : State) : State :=
  if plan.any Prod.snd then (s.onAxis a (.countDeficit plan)).raise .stepDeficit (some a) none else s

theorem State.handTarget_eq {a : Fin 4} {target : Int} {duration : Nat} {s t : State}
    {plan : Option (Plan × Bool)} (ht : s.followingCheck a = t)
    (hp : t.axes[a].planOf t.now t.store a target duration = plan) : s.handTarget a target duration =
      if t.store.axisDisabled a then t
      else ((t.deficitRaised a plan).onAxis a (.replacePlan (t.deficitRaised a plan).now plan)).suppress a := by
  subst ht hp
  unfold State.handTarget State.deficitRaised AxisChannel.planOf AxisChannel.countDeficit
  dsimp only
  rcases formPlan .. with - | ⟨plan, deficit⟩
  · rfl
  · cases deficit <;> rfl

section
variable {s : State} (hs : s.Passing) (a : Fin 4)
include hs

theorem Raised.deficitRaised (plan : Option (Plan × Bool)) :
    Raised (s.onAxis a (.countDeficit plan)) (s.deficitRaised a plan) := by
  unfold State.deficitRaised
  split
  · exact .raise (s := s.onAxis a _) (c := .stepDeficit) ⟨hs.inPass, hs.defaults⟩ (by decide) ..
  next none =>
    have same : s.onAxis a (.countDeficit plan) = s := by
      simp [State.onAxis, AxisChannel.countDeficit, none]
    rw [same]
    exact .refl s

theorem State.deficitRaised_evalMarks (plan : Option (Plan × Bool)) :
    (s.deficitRaised a plan).evalMarks = s.evalMarks := by
  unfold State.deficitRaised
  split
  · exact State.Passing.raise_evalMarks (s := s.onAxis a _) (c := .stepDeficit) ⟨hs.inPass, hs.defaults⟩
      (by decide) (by decide) ..
  · rfl

theorem Raised.planReplaced {target : Int} {duration : Nat} {plan : Option (Plan × Bool)}
    (hp : s.axes[a].planOf s.now s.store a target duration = plan) :
    Raised (s.withOutputs (s.axes.set a (s.channelTakes a target duration)) s.engine.holdTargets s.levels s.cues)
      (if s.store.axisDisabled a then s
      else ((s.deficitRaised a plan).onAxis a (.replacePlan (s.deficitRaised a plan).now plan)).suppress a) := by
  by_cases disabled : s.store.axisDisabled a = true
  · have same : s.axes.set a (s.channelTakes a target duration) = s.axes := by
      simp [State.channelTakes, disabled]
    rw [if_pos disabled, same]
    exact .refl s
  · have raised := Raised.deficitRaised hs a plan
    rw [if_neg disabled, State.suppress_eq, State.onAxis_onAxis]
    have takes : s.channelTakes a target duration =
        (s.deficitRaised a plan).sup.suppressed a
          ((s.axes[a].countDeficit plan).replacePlan (s.deficitRaised a plan).now plan) := by
      rw [raised.fixed]
      simp only [State.channelTakes, hp, if_neg disabled]
      rfl
    rw [takes]
    exact raised.onAxis_outputs fun x => (s.deficitRaised a plan).sup.suppressed a
      (x.replacePlan (s.deficitRaised a plan).now plan)

/-- A target handed in a pass reaches its channel, and raises causes. -/
theorem Raised.handTarget (target : Int) (duration : Nat) :
    Raised (s.withOutputs (s.axes.set a (s.channelTakes a target duration)) s.engine.holdTargets s.levels s.cues)
      (s.handTarget a target duration) := by
  have checked := Raised.followingCheck hs a
  have outputs := checked.withOutputs (s.axes.set a (s.channelTakes a target duration)) s.engine.holdTargets
    s.levels s.cues
  rw [State.handTarget_eq rfl rfl]
  refine outputs.trans ?_
  rw [← State.channelTakes_of_raised checked a target duration, ← checked.axes, ← checked.holdTargets,
    ← checked.levels, ← checked.cues]
  exact .planReplaced (checked.passing hs) a rfl

theorem State.handTarget_evalMarks (target : Int) (duration : Nat) :
    (s.handTarget a target duration).evalMarks = s.evalMarks := by
  have passing := (Raised.followingCheck hs a).passing hs
  rw [State.handTarget_eq rfl rfl, ← State.followingCheck_evalMarks hs a]
  split
  · rfl
  · rw [State.suppress_eq]
    exact State.deficitRaised_evalMarks passing a _

end

/-! ## The targets of a tick (R73, R134) -/

/-- From `s` to `t` the targets of `evs` have been handed to the axes listed. -/
structure HandedOver (evs : Fin 4 → Option AxisEval) (duration : Nat) (axes : List (Fin 4)) (s t : State) :
    Prop where
  raised : Raised (s.withOutputs t.axes t.engine.holdTargets s.levels s.cues) t
  evalMarks : t.evalMarks = s.evalMarks
  handed : ∀ a ∈ axes, ∀ ev, evs a = some ev → t.engine.holdTargets[a] = ev.target ∧
    t.axes[a] = s.channelTakes a ev.target duration ∧
    (s.followsBadly a → t.latchedCause .followingError = true ∧
      (s.engine.nodeState = .running → t.engine.halt.rampStart ≠ none))
  others : ∀ a : Fin 4, a ∉ axes ∨ evs a = none →
    t.engine.holdTargets[a] = s.engine.holdTargets[a] ∧ t.axes[a] = s.axes[a]
  fixed : ∀ a : Fin 4, t.axes[a].commanded = s.axes[a].commanded ∧
    t.axes[a].openCapture = s.axes[a].openCapture

/-- A target handed as the axis's hold target, in a pass. -/
theorem Raised.handHeld {s : State} (hs : s.Passing) (a : Fin 4) (target : Int) (duration : Nat) :
    Raised (s.withOutputs (s.axes.set a (s.channelTakes a target duration)) (s.engine.holdTargets.set a target)
      s.levels s.cues) (s.handHeld a target duration) :=
  .handTarget (s := s.onEngine fun e => { e with holdTargets := e.holdTargets.set a target })
    ⟨hs.inPass, hs.defaults⟩ a target duration

theorem State.handHeld_evalMarks {s : State} (hs : s.Passing) (a : Fin 4) (target : Int) (duration : Nat) :
    (s.handHeld a target duration).evalMarks = s.evalMarks :=
  State.handTarget_evalMarks (s := s.onEngine fun e => { e with holdTargets := e.holdTargets.set a target })
    ⟨hs.inPass, hs.defaults⟩ a target duration

/-- The check of a target that finds its axis astray. -/
theorem State.handHeld_bad {s : State} (hs : s.Passing) {a : Fin 4} (h : s.followsBadly a) (target : Int)
    (duration : Nat) : (s.handHeld a target duration).latchedCause .followingError = true ∧
      (s.engine.nodeState = .running → (s.handHeld a target duration).engine.halt.rampStart ≠ none) := by
  generalize ht : s.onEngine (fun e => { e with holdTargets := e.holdTargets.set a target }) = t
  have passing : t.Passing := ht ▸ ⟨hs.inPass, hs.defaults⟩
  have running : s.engine.nodeState = .running → t.engine.nodeState = .running := by rw [← ht]; exact id
  have bad : t.followsBadly a := ht ▸ h
  have check := State.followingCheck_bad passing a bad
  have checked := Raised.followingCheck passing a
  have latched : (t.followingCheck a).latchedCause .followingError = true :=
    check ▸ State.latchedCause_raise ..
  have halts (hn : s.engine.nodeState = .running) : (t.followingCheck a).engine.halt.rampStart ≠ none :=
    check ▸ State.raise_halts (c := .followingError) passing rfl (running hn) (some a) none
  have replaced := Raised.planReplaced (checked.passing passing) a
    (target := target) (duration := duration) rfl
  rw [← State.handTarget_eq rfl rfl] at replaced
  rw [State.handHeld, ht]
  refine ⟨replaced.latched _ latched, fun hn => ?_⟩
  rw [(replaced.halts.of_held (.inl (halts hn))).1]
  exact halts hn

section
variable {s u : State} {axes : Vector AxisChannel 4} {holds : Vector Int 4} {levels : Vector LevelChannel 2}
  {cues : Vector CueLine 8} {b : Fin 4} (h : Raised (s.withOutputs axes holds levels cues) u)
  (hb : axes[b] = s.axes[b])
include h hb

/-- What another channel takes of a target, and its following error, have stayed. -/
theorem State.channelTakes_of_outputs (target : Int) (duration : Nat) :
    u.channelTakes b target duration = s.channelTakes b target duration := by
  rw [State.channelTakes_of_raised h]
  simp only [State.channelTakes, State.withOutputs, hb]

theorem State.followsBadly_of_outputs : u.followsBadly b ↔ s.followsBadly b := by
  have axes : u.axes[b] = s.axes[b] := by rw [h.axes]; exact hb
  have store : u.store = s.store := congrArg (·.store) h.fixed
  have now : u.now = s.now := congrArg (·.now) h.fixed
  simp only [State.followsBadly, axes, store, now]

end

theorem State.followsBadly_of_raised {s t : State} (h : Raised s t) {a : Fin 4} :
    t.followsBadly a ↔ s.followsBadly a :=
  State.followsBadly_of_outputs (axes := s.axes) (holds := s.engine.holdTargets) (levels := s.levels)
    (cues := s.cues) h rfl

namespace HandedOver
variable {evs : Fin 4 → Option AxisEval} {duration : Nat} {axes : List (Fin 4)} {s t : State}

theorem nil (s : State) : HandedOver evs duration [] s s where
  raised := .refl s
  evalMarks := rfl
  handed := by simp
  others _ _ := ⟨rfl, rfl⟩
  fixed _ := ⟨rfl, rfl⟩

theorem cons_none {a : Fin 4} (he : evs a = none) (h : HandedOver evs duration axes s t) :
    HandedOver evs duration (a :: axes) s t where
  raised := h.raised
  evalMarks := h.evalMarks
  handed b hb ev hev := by
    rcases List.mem_cons.1 hb with rfl | hb
    · simp [he] at hev
    · exact h.handed b hb ev hev
  others b hb := h.others b (hb.imp_left fun h => mt (List.mem_cons_of_mem a) h)
  fixed := h.fixed

theorem cons_some (hs : s.Passing) {a : Fin 4} {ev : AxisEval} (ha : a ∉ axes) (he : evs a = some ev)
    (h : HandedOver evs duration axes (s.handHeld a ev.target duration) t) :
    HandedOver evs duration (a :: axes) s t := by
  have first := Raised.handHeld hs a ev.target duration
  have evalMarks := State.handHeld_evalMarks hs a ev.target duration
  have bad (hb : s.followsBadly a) := State.handHeld_bad hs hb ev.target duration
  generalize s.handHeld a ev.target duration = u at h first evalMarks bad
  have newAxes := first.axes
  have holds := first.holdTargets
  have node : u.engine.nodeState = s.engine.nodeState := first.nodeState
  have other (b : Fin 4) (hb : b ≠ a) :
      (s.axes.set a (s.channelTakes a ev.target duration))[b] = s.axes[b] :=
    Vector.getElem_set_ne _ _ fun h => hb (Fin.ext h.symm)
  refine ⟨?_, h.evalMarks.trans evalMarks, fun b hb ev' hev => ?_, fun b hb => ?_, fun b => ?_⟩
  · have outputs := first.withOutputs t.axes t.engine.holdTargets s.levels s.cues
    have later := h.raised
    rw [first.levels, first.cues] at later
    exact outputs.trans later
  · rcases List.mem_cons.1 hb with rfl | hb
    · obtain rfl : ev = ev' := Option.some.inj (he.symm.trans hev)
      obtain ⟨sameHold, sameAxis⟩ := h.others b (.inl ha)
      refine ⟨?_, ?_, fun hf => ⟨h.raised.latched _ (bad hf).1, fun hn => ?_⟩⟩
      · rw [sameHold, holds]
        exact Vector.getElem_set_self ..
      · rw [sameAxis, newAxes]
        exact Vector.getElem_set_self ..
      · have halted := (bad hf).2 hn
        rw [(h.raised.halts.of_held (.inl halted)).1]
        exact halted
    · have kept := other b fun hba => ha (hba ▸ hb)
      have later := h.handed b hb ev' hev
      rw [State.channelTakes_of_outputs first kept, State.followsBadly_of_outputs first kept, node] at later
      exact later
  · have hba : b ≠ a := by
      rintro rfl
      exact hb.elim (· List.mem_cons_self) fun hn => by simp [he] at hn
    obtain ⟨sameHold, sameAxis⟩ := h.others b (hb.imp_left fun h => mt (List.mem_cons_of_mem a) h)
    refine ⟨?_, ?_⟩
    · rw [sameHold, holds]
      exact Vector.getElem_set_ne a.isLt b.isLt fun h => hba (Fin.ext h.symm)
    · rw [sameAxis, newAxes]
      exact other b hba
  · rw [(h.fixed b).1, (h.fixed b).2, newAxes]
    by_cases hba : b = a
    · subst hba
      have same : (State.withOutputs (s.axes.set b (s.channelTakes b ev.target duration))
          (s.engine.holdTargets.set b ev.target) s.levels s.cues s).axes[b] =
          s.channelTakes b ev.target duration := Vector.getElem_set_self ..
      rw [same]
      exact s.channelTakes_fixed b ev.target duration
    · have same : (State.withOutputs (s.axes.set a (s.channelTakes a ev.target duration))
          (s.engine.holdTargets.set a ev.target) s.levels s.cues s).axes[b] = s.axes[b] := other b hba
      rw [same]
      exact ⟨rfl, rfl⟩

end HandedOver

/-- The targets of `evs`, handed to the axes listed in their order. -/
def State.targetsHanded (evs : Fin 4 → Option AxisEval) (duration : Nat) (axes : List (Fin 4)) (s : State) : State :=
  axes.foldl (fun s a => ((evs a).map fun ev => s.handHeld a ev.target duration).getD s) s

theorem HandedOver.targetsHanded {evs : Fin 4 → Option AxisEval} {duration : Nat} {axes : List (Fin 4)}
    (hn : axes.Nodup) {s : State} (hs : s.Passing) :
    HandedOver evs duration axes s (s.targetsHanded evs duration axes) := by
  unfold State.targetsHanded
  induction axes generalizing s with
  | nil => exact .nil s
  | cons a axes ih =>
    obtain ⟨ha, hn⟩ := List.nodup_cons.1 hn
    rw [List.foldl_cons]
    cases he : evs a with
    | none => exact .cons_none he (ih hn hs)
    | some ev =>
      refine .cons_some hs ha he (ih hn ?_)
      exact (Raised.handHeld hs a ev.target duration).passing ⟨hs.inPass, hs.defaults⟩

/-! ## The levels (R170) -/

/-- A channel takes a level: its duty is computed afresh, and its output stands until the next period. -/
theorem State.takeLevel_eq (c : Fin 2) (v : Nat) (source : LevelSource) (s : State) :
    ∃ l : LevelChannel, s.takeLevel c v source = { s with levels := s.levels.set c l } ∧ l.level = v ∧
      l.source = source ∧ l.activeDuty = s.levels[c].activeDuty ∧ l.supply = s.levels[c].supply := by
  refine ⟨(s.takeLevel c v source).levels[c], ?_, ?_⟩
  · simp [State.takeLevel, State.computeDuty, State.onLevel]
  · simp [State.takeLevel, State.computeDuty, State.onLevel]

/-- One channel's part of an evaluation of the levels. -/
def State.levelEvaluated (t : Nat) (c : Fin 2) (s : State) : State :=
  ((s.store.evalLevel t c).map fun v => s.takeLevel c v .evaluated).getD s

theorem State.evaluateLevels_eq (t : Nat) (s : State) :
    s.evaluateLevels t = (s.levelEvaluated t 0).levelEvaluated t 1 := by
  have step (c : Fin 2) (u : State) : (match u.store.evalLevel t c with
      | some v => u.takeLevel c v .evaluated
      | none => u) = u.levelEvaluated t c := by
    unfold State.levelEvaluated
    cases u.store.evalLevel t c <;> rfl
  exact (step 1 _).trans (congrArg (State.levelEvaluated t 1) (step 0 s))

theorem State.levelEvaluated_eq (t : Nat) (c : Fin 2) (s : State) :
    ∃ l : LevelChannel, s.levelEvaluated t c = { s with levels := s.levels.set c l } ∧
      (∀ v, s.store.evalLevel t c = some v → l.level = v ∧ l.source = .evaluated ∧
        l.activeDuty = s.levels[c].activeDuty ∧ l.supply = s.levels[c].supply) ∧
      (s.store.evalLevel t c = none → l = s.levels[c]) := by
  unfold State.levelEvaluated
  cases s.store.evalLevel t c with
  | none => exact ⟨s.levels[c], by simp, by simp, fun _ => rfl⟩
  | some v =>
    obtain ⟨l, taken, level⟩ := s.takeLevel_eq c v .evaluated
    exact ⟨l, taken, by rintro _ ⟨⟩; exact level, by simp⟩

/-- An evaluation of the levels reaches the level channels alone. -/
theorem State.evaluateLevels_taken (t : Nat) (s : State) :
    ∃ ls, s.evaluateLevels t = { s with levels := ls } ∧ s.levelsTaken t { s with levels := ls } := by
  obtain ⟨l0, first, taken0, kept0⟩ := s.levelEvaluated_eq t 0
  obtain ⟨l1, second, taken1, kept1⟩ := (s.levelEvaluated t 0).levelEvaluated_eq t 1
  rw [first] at second taken1 kept1
  have other : (s.levels.set 0 l0)[(1 : Fin 2)] = s.levels[(1 : Fin 2)] :=
    Vector.getElem_set_ne _ _ (by decide)
  have at0 : ((s.levels.set 0 l0).set 1 l1)[(0 : Fin 2)] = l0 :=
    (Vector.getElem_set_ne _ _ (by decide)).trans (Vector.getElem_set_self ..)
  have at1 : ((s.levels.set 0 l0).set 1 l1)[(1 : Fin 2)] = l1 := Vector.getElem_set_self ..
  refine ⟨(s.levels.set 0 l0).set 1 l1, ?_, fun l => ?_⟩
  · exact (State.evaluateLevels_eq ..).trans ((congrArg (State.levelEvaluated t 1) first).trans second)
  · match l with
    | 0 =>
      rw [at0]
      exact ⟨taken0, kept0⟩
    | 1 =>
      rw [at1, ← other]
      exact ⟨taken1, kept1⟩

/-! ## The cue lines (R176, R177) -/

theorem CueLine.act_eq (e : CueEntry) (i : Fin 8) (l : CueLine) :
    (if e.lines.getLsbD i then l.act e else l) = e.leaves i l := by
  unfold CueLine.act CueEntry.leaves
  split
  · split <;> simp_all
  · rfl

/-- The crossing entries act on each line in their order. -/
theorem foldl_applyEntry (es : List CueEntry) (ls : Vector CueLine 8) (i : Fin 8) :
    (es.foldl applyEntry ls)[i] = es.foldl (fun line e => e.leaves i line) ls[i] := by
  induction es generalizing ls with
  | nil => rfl
  | cons e es ih =>
    have acted : (applyEntry ls e)[i] = e.leaves i ls[i] := by
      rw [← CueLine.act_eq]
      simp [applyEntry]
    rw [List.foldl_cons, List.foldl_cons, ih, acted]

/-! ## The work of a tick (R108) -/

/-- From `s` to `w` the work of a pass tick has been done at the move time of `s`. -/
structure TickWorked (scale index duration : Nat) (s w : State) : Prop where
  raised : Raised (s.withOutputs w.axes w.engine.holdTargets w.levels w.cues) w
  taken : EvalMarks.Taken .pass s.engine.tick (exceptionsOf (s.store.evalAxis s.engine.moveTime scale) axisOrder)
    (clampsOf (s.store.evalAxis s.engine.moveTime scale) axisOrder) s.evalMarks w.evalMarks
  clamped : ∀ a ev, s.store.evalAxis s.engine.moveTime scale a = some ev → ev.clamped = true →
    s.engine.nodeState = .running → s.engine.halt.rampStart = none →
    w.engine.halt.rampStart = some s.engine.ownRampStart ∧ w.engine.halt.cause = some ⟨11, s.ownNumber⟩
  handed : ∀ a ev, s.store.evalAxis s.engine.moveTime scale a = some ev →
    w.engine.holdTargets[a] = ev.target ∧ w.axes[a] = s.channelTakes a ev.target duration ∧
    (s.followsBadly a → w.latchedCause .followingError = true ∧
      (s.engine.nodeState = .running → w.engine.halt.rampStart ≠ none))
  others : ∀ a, s.store.evalAxis s.engine.moveTime scale a = none → w.axes[a] = s.axes[a]
  fixed : ∀ a : Fin 4, w.axes[a].commanded = s.axes[a].commanded ∧
    w.axes[a].openCapture = s.axes[a].openCapture
  levels : (index = 0 → s.levelsTaken s.engine.moveTime w) ∧ (index ≠ 0 → w.levels = s.levels)
  cues : ∀ i : Fin 8, w.cues[i] = (s.store.crossings s.engine.prevTime s.engine.moveTime).foldl
    (fun line entry => entry.leaves i line) s.cues[i]

/-- The levels take their values on index 0. -/
def State.levelsAt (index t : Nat) (s : State) : State := if index = 0 then s.evaluateLevels t else s

theorem State.levelsAt_taken (index t : Nat) (s : State) : ∃ ls, s.levelsAt index t = { s with levels := ls } ∧
    (index = 0 → s.levelsTaken t { s with levels := ls }) ∧ (index ≠ 0 → ls = s.levels) := by
  unfold State.levelsAt
  split
  next h0 =>
    obtain ⟨ls, taken, levels⟩ := s.evaluateLevels_taken t
    exact ⟨ls, taken, fun _ => levels, fun h => absurd h0 h⟩
  next h0 => exact ⟨s.levels, rfl, fun h => absurd h h0, fun _ => rfl⟩

/-- The work of a tick as its four parts. -/
theorem State.tickWork_eq (p : PassParams) (index duration : Nat) (s : State) : s.tickWork p index duration =
    let evaluated := s.raiseEval (s.store.evalAxes s.engine.moveTime p.scale) .pass s.engine.tick
    let handed := evaluated.targetsHanded (s.store.evalAxis s.engine.moveTime p.scale) duration axisOrder
    let leveled := handed.levelsAt index s.engine.moveTime
    leveled.applyEntries (leveled.store.crossings leveled.engine.prevTime s.engine.moveTime) := by
  have hand (evs : Fin 4 → Option AxisEval) (vs : Vector (Option AxisEval) 4) (hv : ∀ a : Fin 4, vs[a] = evs a)
      (t : State) : axisOrder.foldl (fun s a => match vs[a] with
        | some ev => s.handHeld a ev.target duration
        | none => s) t = t.targetsHanded evs duration axisOrder := by
    unfold State.targetsHanded
    refine congrArg (fun f => axisOrder.foldl f t) (funext fun s => funext fun a => ?_)
    rw [hv]
    cases evs a <;> rfl
  have evs (a : Fin 4) : (s.store.evalAxes s.engine.moveTime p.scale)[a] =
      s.store.evalAxis s.engine.moveTime p.scale a := by simp [MoveStore.evalAxes]
  exact congrArg (fun u => (State.levelsAt index s.engine.moveTime u).applyEntries
    ((State.levelsAt index s.engine.moveTime u).store.crossings
      (State.levelsAt index s.engine.moveTime u).engine.prevTime s.engine.moveTime)) (hand _ _ evs _)

theorem TickWorked.tickWork {s : State} (hs : s.Passing) (p : PassParams) (index duration : Nat) :
    TickWorked p.scale index duration s (s.tickWork p index duration) := by
  have evs : (fun a : Fin 4 => (s.store.evalAxes s.engine.moveTime p.scale)[a]) =
      s.store.evalAxis s.engine.moveTime p.scale := by
    funext a
    simp [MoveStore.evalAxes]
  have evaluated := Evaluated.raiseEval hs (s.store.evalAxes s.engine.moveTime p.scale) s.engine.tick
  rw [evs] at evaluated
  rw [State.tickWork_eq]
  dsimp only
  generalize s.raiseEval (s.store.evalAxes s.engine.moveTime p.scale) .pass s.engine.tick = t at evaluated ⊢
  have handed := HandedOver.targetsHanded (evs := s.store.evalAxis s.engine.moveTime p.scale)
    (duration := duration) (axes := axisOrder) (by decide) (evaluated.raised.passing hs)
  generalize t.targetsHanded (s.store.evalAxis s.engine.moveTime p.scale) duration axisOrder = u at handed ⊢
  have raised : Raised (s.withOutputs u.axes u.engine.holdTargets s.levels s.cues) u := by
    have later := handed.raised
    rw [evaluated.raised.levels, evaluated.raised.cues] at later
    exact (evaluated.raised.withOutputs ..).trans later
  have store : u.store = s.store := congrArg (·.store) raised.fixed
  have prev : u.engine.prevTime = s.engine.prevTime := congrArg (·.engine.prevTime) raised.fixed
  have axes (a : Fin 4) : t.axes[a] = s.axes[a] := by rw [evaluated.raised.axes]
  obtain ⟨ls, leveled, levels⟩ := u.levelsAt_taken index s.engine.moveTime
  rw [leveled]
  have sum := raised.withOutputs u.axes u.engine.holdTargets ls
    ((u.store.crossings u.engine.prevTime s.engine.moveTime).foldl applyEntry u.cues)
  refine ⟨sum, ?_, fun a ev he hc hn hr => ?_, fun a ev he => ?_, fun a he => ?_, fun a => ?_, ?_, fun i => ?_⟩
  · exact handed.evalMarks ▸ evaluated.taken
  · have clamps : clampsOf (s.store.evalAxis s.engine.moveTime p.scale) axisOrder ≠ [] :=
      List.ne_nil_of_mem (mem_clampsOf.2 ⟨ev, he, hc⟩)
    have halts := evaluated.halts clamps hn hr
    have held := (handed.raised.halts.of_held (.inl (by simp [State.withOutputs, halts.1]))).1
    show u.engine.halt.rampStart = _ ∧ u.engine.halt.cause = _
    rw [held]
    exact halts
  · have taken := handed.handed a (mem_axisOrder a) ev he
    rw [State.channelTakes_of_raised evaluated.raised, State.followsBadly_of_raised evaluated.raised,
      evaluated.raised.nodeState] at taken
    exact taken
  · exact (handed.others a (.inr he)).2.trans (axes a)
  · rw [← axes a]
    exact handed.fixed a
  · have same : u.levels = s.levels := raised.levels
    refine ⟨fun h0 => ?_, fun h0 => (levels.2 h0).trans same⟩
    have taken := levels.1 h0
    unfold State.levelsTaken at taken ⊢
    rw [store, same] at taken
    exact taken
  · rw [← store, ← prev]
    refine (foldl_applyEntry ..).trans ?_
    rw [raised.cues]
    rfl

end Sys2Proof.Machine
end

section
/-! PROOFS. What a tick that does not end the pass leaves behind its work: the REPORT of a report tick (R112) and
the missing-report checks (R32). -/

namespace Sys2Proof.Machine

/-! ## Report and check instants -/

theorem reportTick_iff {station interval n : Nat} :
    reportTick station interval n = true ↔ ∃ frame, reportInstant station interval n frame := by
  simp only [reportTick, Bool.and_eq_true, decide_eq_true_eq, beq_iff_eq]
  constructor
  · rintro ⟨⟨late, whole⟩, due⟩
    exact ⟨_, by omega, due⟩
  · rintro ⟨frame, at_, due⟩
    have : (n - (4 + station % 8)) / 16 = frame := by omega
    rw [this]
    exact ⟨⟨by omega, by omega⟩, due⟩

theorem checkTick_iff {station interval n : Nat} : checkTick station interval n = true ↔
    ∃ frame, interval ≤ frame ∧ reportInstant station interval n frame := by
  simp only [checkTick, Bool.and_eq_true, reportTick_iff, decide_eq_true_eq]
  constructor
  · rintro ⟨⟨frame, at_, due⟩, later⟩
    exact ⟨frame, by omega, at_, due⟩
  · rintro ⟨frame, later, at_, due⟩
    exact ⟨⟨frame, at_, due⟩, by omega⟩

/-! ## The missing-report checks (R32) -/

/-- The entry at each place is checked where its check is due. -/
theorem missingChecks_getElem? (interval n k : Nat) (es : List RosterEntry) (i : Nat) :
    (missingChecks interval n k es).1[i]? = es[i]?.map fun e =>
      if e.checkedAt (k + i) interval n then e.missingCheck.1 else e := by
  induction es generalizing k i with
  | nil => rfl
  | cons e es ih =>
    cases i with
    | zero =>
      simp only [missingChecks, Nat.add_zero, List.getElem?_cons_zero, Option.map_some]
      split <;> rfl
    | succ i =>
      have next := ih (k + 1) i
      rw [Nat.add_right_comm] at next
      simp only [missingChecks]
      split <;> simpa [Nat.add_assoc] using next

/-- The places found missing. -/
theorem mem_missingChecks {interval n k : Nat} {es : List RosterEntry} {i : Nat} {e : RosterEntry}
    (he : es[i]? = some e) (hc : e.checkedAt (k + i) interval n = true) (hm : e.missingCheck.2 = true) :
    k + i ∈ (missingChecks interval n k es).2 := by
  induction es generalizing k i with
  | nil => simp at he
  | cons x es ih =>
    cases i with
    | zero =>
      obtain rfl : x = e := by simpa using he
      rw [Nat.add_zero] at hc
      simp [missingChecks, hc, hm]
    | succ i =>
      have later := ih (k := k + 1) (by simpa using he) (by simpa [Nat.add_assoc, Nat.add_comm 1] using hc)
      have place : k + 1 + i = k + (i + 1) := by omega
      rw [place] at later
      simp only [missingChecks]
      split
      · dsimp only
        split
        · exact List.mem_cons_of_mem _ later
        · exact later
      · exact later

/-- The table as the checks of a tick leave it. -/
def State.tableChecked (interval : Nat) (s : State) : State :=
  s.onRoster fun r => { r with table := (missingChecks interval s.engine.tick 0 r.table).1 }

section
variable {s : State} {pass : PassParams} (hp : s.engine.params = some pass)
include hp

theorem State.checkMissing_eq : s.checkMissing =
    (missingChecks pass.interval s.engine.tick 0 s.roster.table).2.foldl
      (fun s i => s.raise .peerAbsent none (some i)) (s.tableChecked pass.interval) := by
  simp only [State.checkMissing, hp]
  rfl

variable (hs : s.Passing)
include hs

theorem Raised.checkMissing : Raised (s.tableChecked pass.interval) s.checkMissing := by
  rw [State.checkMissing_eq hp]
  exact .foldl (fun t i ht => .raise ht (by decide) ..) _ ⟨hs.inPass, hs.defaults⟩

theorem State.checkMissing_evalMarks : s.checkMissing.evalMarks = s.evalMarks := by
  rw [State.checkMissing_eq hp]
  have passing : (s.tableChecked pass.interval).Passing := ⟨hs.inPass, hs.defaults⟩
  have same : (s.tableChecked pass.interval).evalMarks = s.evalMarks := rfl
  rw [← same]
  generalize s.tableChecked pass.interval = t at passing
  induction (missingChecks pass.interval s.engine.tick 0 s.roster.table).2 generalizing t with
  | nil => rfl
  | cons i is ih =>
    rw [List.foldl_cons, ih _ ((Raised.raise (c := .peerAbsent) passing (by decide) ..).passing passing)]
    exact passing.raise_evalMarks (by decide) (by decide) ..

theorem State.checkMissing_absent (h : (missingChecks pass.interval s.engine.tick 0 s.roster.table).2 ≠ []) :
    s.checkMissing.latchedCause .peerAbsent = true := by
  rw [State.checkMissing_eq hp]
  obtain ⟨i, is, his⟩ := List.exists_cons_of_ne_nil h
  have passing : (s.tableChecked pass.interval).Passing := ⟨hs.inPass, hs.defaults⟩
  have first := Raised.raise (c := .peerAbsent) passing (by decide) none (some i)
  rw [his, List.foldl_cons]
  exact (Raised.foldl (fun t i ht => .raise ht (by decide) ..) is (first.passing passing)).latched _
    (State.latchedCause_raise ..)

/-- R32, as the claims say it. -/
theorem State.checkMissing_checked : s.missingChecked pass.interval s.engine.tick s.checkMissing := by
  intro i e he
  dsimp only
  have table : s.checkMissing.roster.table = (missingChecks pass.interval s.engine.tick 0 s.roster.table).1 :=
    (Raised.checkMissing hp hs).table
  have entry := missingChecks_getElem? pass.interval s.engine.tick 0 s.roster.table i
  have missing := mem_missingChecks (interval := pass.interval) (n := s.engine.tick) (k := 0) he
  have checked : e.checkedAt (0 + i) pass.interval s.engine.tick = true ↔
      e.watched = true ∧ ∃ frame, pass.interval ≤ frame ∧ reportInstant i pass.interval s.engine.tick frame := by
    rw [RosterEntry.checkedAt, Bool.and_eq_true, checkTick_iff, Nat.zero_add]
  rw [← checked, table, entry, he, Option.map_some]
  refine ⟨fun h => ?_, fun h heard => ?_, fun h heard run => ?_, fun h heard run => ⟨?_, ?_⟩⟩
  · rw [if_neg h]
  · rw [if_pos h]
    simp [RosterEntry.missingCheck, heard]
  · rw [if_pos h]
    simp [RosterEntry.missingCheck, heard, run]
  · have absent : e.missingCheck.2 = true := by
      have : 2 ≤ e.missingRun + 1 := by omega
      simp [RosterEntry.missingCheck, heard, this]
    exact State.checkMissing_absent hp hs (List.ne_nil_of_mem (missing h absent))
  · have : 2 ≤ e.missingRun + 1 := by omega
    rw [if_pos h]
    simp [RosterEntry.missingCheck, heard, this]

end

/-! ## The REPORT of a report tick (R111, R112) -/

theorem fieldAt_one (p : List Byte) (i : Nat) : fieldAt p i 1 = byteAt p i := by
  simp [fieldAt]

section
variable (s : State)

theorem State.reportPayload_length : s.reportPayload.length = 24 := by
  simp [State.reportPayload, axisOrder, signedBytes]

/-- A REPORT's state code stands in its first byte. -/
theorem State.reportPayload_code : byteAt s.reportPayload 0 % 16 = s.engine.nodeState.code := by
  have first := fieldAt_bytesOf ((s.store.phase == .valid).toNat * 16 + s.engine.nodeState.code) 1
    (s.reportPayload.drop 1)
  have split : bytesOf ((s.store.phase == .valid).toNat * 16 + s.engine.nodeState.code) 1 ++
      s.reportPayload.drop 1 = s.reportPayload := by
    simp [State.reportPayload, bytesOf]
  rw [split, fieldAt_one] at first
  have code : s.engine.nodeState.code < 16 := by cases s.engine.nodeState <;> decide
  rw [first]
  omega

/-- The roll count and the pass start follow it. -/
theorem State.reportPayload_position : fieldAt s.reportPayload 1 5 =
    s.clock.roll % 2 ^ 20 * 2 ^ 20 + s.passStart % 2 ^ 20 := by
  have field := fieldAt_bytesOf (s.clock.roll % 2 ^ 20 * 2 ^ 20 + s.passStart % 2 ^ 20) 5
    (s.reportPayload.drop 6)
  have behind := fieldAt_append (bytesOf ((s.store.phase == .valid).toNat * 16 + s.engine.nodeState.code) 1)
    (bytesOf (s.clock.roll % 2 ^ 20 * 2 ^ 20 + s.passStart % 2 ^ 20) 5 ++ s.reportPayload.drop 6) 0 5
  have split : bytesOf ((s.store.phase == .valid).toNat * 16 + s.engine.nodeState.code) 1 ++
      (bytesOf (s.clock.roll % 2 ^ 20 * 2 ^ 20 + s.passStart % 2 ^ 20) 5 ++ s.reportPayload.drop 6) =
      s.reportPayload := by
    simp [State.reportPayload, bytesOf]
  rw [split, field, length_bytesOf] at behind
  have := Nat.mod_lt s.clock.roll (show 0 < 2 ^ 20 by decide)
  have := Nat.mod_lt s.passStart (show 0 < 2 ^ 20 by decide)
  rw [behind]
  omega

end

/-- With room the REPORT offered in a pass waits in the queue. -/
theorem State.offerReport_inPass {s : State} (hn : s.engine.nodeState.inPass = true)
    (hl : s.line.txQueue.length < 8) : ∃ e ∈ s.offerReport.line.txQueue,
      e.owner = .report ∧ e.sending = false ∧ e.payload = s.reportPayload := by
  have hset : s.engine.nodeState ≠ .settling := fun h => by simp [h, NodeState.inPass] at hn
  have hx : s.engine.nodeState ≠ .excluded := fun h => by simp [h, NodeState.inPass] at hn
  cases hr : s.line.txQueue.any TxEntry.heldReport with
  | false =>
    obtain ⟨e, he, waits⟩ := List.any_eq_true.1 (State.offerReport_waits hset hx hr hl)
    exact ⟨e, he, by simpa [and_assoc] using waits⟩
  | true =>
    obtain ⟨before, x, behind, hq, hp, hb⟩ := exists_first hr
    rw [State.offerReport, if_neg (by simp [hset, hx]), if_pos hn, State.offer_replaces hx rfl hq hp hb]
    obtain ⟨owner, sending⟩ : x.owner = .report ∧ x.sending = false := by
      simpa [TxEntry.heldReport] using hp
    exact ⟨_, List.mem_append_right _ List.mem_cons_self, owner, sending, rfl⟩

section
variable {s : State} {pass : PassParams} (hp : s.engine.params = some pass)
include hp

theorem State.reportIfDue_eq : s.reportIfDue =
    if reportTick s.ownNumber pass.interval s.engine.tick then s.offerReport else s := by
  simp only [State.reportIfDue, hp]

theorem State.reportIfDue_nodeState : s.reportIfDue.engine.nodeState = s.engine.nodeState := by
  rw [State.reportIfDue_eq hp]
  split <;> simp

theorem Tells.reportIfDue : Tells 1 s s.reportIfDue := by
  rw [State.reportIfDue_eq hp]
  exact RaiseClosed.of_ite (fun _ => .offerReport s) fun _ => (Tells.refl s).mono (Nat.zero_le 1)

end

/-! ## A tick that does not end the pass -/

/-- A telegram that is no REPORT leaves the REPORTs that wait. -/
theorem filter_placeEntry {e : TxEntry} {p : TxEntry → Bool} (he : p e = false) (q : List TxEntry) :
    (placeEntry e q).filter p = q.filter p := by
  induction q with
  | nil => simp [placeEntry, he]
  | cons x xs ih =>
    unfold placeEntry
    split
    · simp [he]
    · simp [List.filter_cons, ih]

/-- What waits in the queue of `s` is in that of `t`, and the REPORTs alike. -/
structure QueueKeeps (s t : State) : Prop where
  stays : ∀ e ∈ s.line.txQueue, e ∈ t.line.txQueue
  reports : t.line.txQueue.filter (fun e => e.owner == .report) =
    s.line.txQueue.filter fun e => e.owner == .report

theorem HaltsOnce.keeps {s t : State} (h : HaltsOnce s t) (hl : s.line.txQueue.length < 8) : QueueKeeps s t := by
  rcases h.cases with ⟨-, line⟩ | ⟨-, placed⟩
  · exact ⟨fun e he => by rwa [line], by rw [line]⟩
  · obtain ⟨e, owner, queue⟩ := placed hl
    refine ⟨fun x hx => ?_, ?_⟩
    · rw [queue]
      exact (placeEntry_perm ..).mem_iff.2 (List.mem_cons_of_mem _ hx)
    · rw [queue, filter_placeEntry (by simp [owner])]

/-- Where a tick's work ends with room for the REPORT and for an own HALT that may still follow it. -/
theorem HaltsOnce.room {s t : State} (h : HaltsOnce s t) (hl : s.line.txQueue.length < 7) :
    t.line.txQueue.length < 7 ∨ t.line.txQueue.length < 8 ∧ t.engine.halt.rampStart ≠ none := by
  rcases h.cases with ⟨-, line⟩ | ⟨ramp, placed⟩
  · exact .inl (by rwa [line])
  · obtain ⟨e, -, queue⟩ := placed (by omega)
    refine .inr ⟨?_, by simp [ramp]⟩
    rw [queue, placeEntry_length]
    omega

/-- What stands once a tick's work is done, whether the pass goes on or ends. -/
structure TickKept (w u : State) : Prop where
  now : u.now = w.now
  roll : u.clock.roll = w.clock.roll
  store : u.store = w.store
  axes : u.axes = w.axes
  levels : u.levels = w.levels
  tick : u.engine.tick = w.engine.tick ∧ u.engine.ticked = w.engine.ticked ∧
    u.engine.tickDuration = w.engine.tickDuration ∧ u.engine.prevTime = w.engine.prevTime ∧
    u.engine.moveTime = w.engine.moveTime ∧ u.engine.passNumber = w.engine.passNumber
  holdTargets : u.engine.holdTargets = w.engine.holdTargets
  rampIndex : u.engine.halt.rampIndex = w.engine.halt.rampIndex
  evalMarks : u.evalMarks = w.evalMarks
  latched : ∀ c, w.latchedCause c = true → u.latchedCause c = true

theorem TickKept.trans {s t u : State} (h : TickKept s t) (k : TickKept t u) : TickKept s u where
  now := k.now.trans h.now
  roll := k.roll.trans h.roll
  store := k.store.trans h.store
  axes := k.axes.trans h.axes
  levels := k.levels.trans h.levels
  tick := by
    obtain ⟨a, b, c, d, e, f⟩ := h.tick
    obtain ⟨a', b', c', d', e', f'⟩ := k.tick
    exact ⟨a'.trans a, b'.trans b, c'.trans c, d'.trans d, e'.trans e, f'.trans f⟩
  holdTargets := k.holdTargets.trans h.holdTargets
  rampIndex := k.rampIndex.trans h.rampIndex
  evalMarks := k.evalMarks.trans h.evalMarks
  latched c := k.latched c ∘ h.latched c

theorem TickKept.of_tells {n : Nat} {s t : State} (h : Tells n s t) : TickKept s t := by
  have roll := h.roll
  have fixed := h.fixed
  generalize t.line.txQueue = q, t.engine.nodeState = ns, t.engine.reportStart = start, t.sup.counters = k,
    t.clock = clock, t.cues = cues at fixed roll
  subst fixed
  exact ⟨rfl, roll, rfl, rfl, rfl, ⟨rfl, rfl, rfl, rfl, rfl, rfl⟩, rfl, rfl, rfl, fun _ => id⟩

section
variable {s : State} {pass : PassParams} (hp : s.engine.params = some pass) (hs : s.Passing)
include hp hs

theorem TickKept.checkMissing : TickKept s s.checkMissing := by
  have fixed := (Raised.checkMissing hp hs).fixed
  exact {
    now := congrArg (·.now) fixed
    roll := congrArg (·.clock.roll) fixed
    store := congrArg (·.store) fixed
    axes := congrArg (·.axes) fixed
    levels := congrArg (·.levels) fixed
    tick := ⟨congrArg (·.engine.tick) fixed, congrArg (·.engine.ticked) fixed,
      congrArg (·.engine.tickDuration) fixed, congrArg (·.engine.prevTime) fixed,
      congrArg (·.engine.moveTime) fixed, congrArg (·.engine.passNumber) fixed⟩
    holdTargets := congrArg (·.engine.holdTargets) fixed
    rampIndex := congrArg (·.engine.halt.rampIndex) fixed
    evalMarks := State.checkMissing_evalMarks hp hs
    latched := (Raised.checkMissing hp hs).latched }

end

/-- A tick whose pass goes on, from the end of its work. -/
structure TickGoesOn (pass : PassParams) (w u : State) : Prop where
  kept : TickKept w u
  nodeState : u.engine.nodeState = w.engine.nodeState
  clock : u.clock = w.clock
  reg : u.reg = w.reg
  cues : u.cues = w.cues
  missing : w.missingChecked pass.interval w.engine.tick u
  halt : w.engine.halt.rampStart ≠ none → u.engine.halt = w.engine.halt
  reports : w.line.txQueue.length < 7 ∨ w.line.txQueue.length < 8 ∧ w.engine.halt.rampStart ≠ none →
    (reportTick w.ownNumber pass.interval w.engine.tick = true → ∃ e ∈ u.line.txQueue,
      e.owner = .report ∧ e.sending = false ∧ e.payload = w.reportPayload) ∧
    (reportTick w.ownNumber pass.interval w.engine.tick ≠ true →
      u.line.txQueue.filter (fun e => e.owner == .report) = w.line.txQueue.filter fun e => e.owner == .report)

theorem TickGoesOn.of_passing {w : State} {pass : PassParams} (hp : w.engine.params = some pass)
    (hs : w.Passing) : TickGoesOn pass w w.reportIfDue.checkMissing := by
  have told := Tells.reportIfDue hp
  have due := State.reportIfDue_eq hp
  have nodeState := State.reportIfDue_nodeState hp
  have clock : w.reportIfDue.clock = w.clock := by
    rw [due]
    split <;> simp
  have cues : w.reportIfDue.cues = w.cues := by
    rw [due]
    split <;> simp
  have engine : w.reportIfDue.engine = { w.engine with
      nodeState := w.reportIfDue.engine.nodeState, reportStart := w.reportIfDue.engine.reportStart } :=
    congrArg (·.engine) told.fixed
  generalize hx : w.reportIfDue = x at *
  have passing : x.Passing := ⟨nodeState ▸ hs.inPass, (congrArg (·.sup.dispositions) told.fixed).trans hs.defaults⟩
  have params : x.engine.params = some pass := by rw [engine, hp]
  have halt : x.engine.halt = w.engine.halt := by rw [engine]
  have tick : x.engine.tick = w.engine.tick := by rw [engine]
  have roster : x.roster = w.roster := congrArg (·.roster) told.fixed
  have raised := Raised.checkMissing params passing
  refine ⟨(TickKept.of_tells told).trans (.checkMissing params passing), raised.nodeState.trans nodeState,
    (congrArg (·.clock) raised.fixed).trans clock, ?_, raised.cues.trans cues, ?_, fun hr => ?_, fun hl => ?_⟩
  · exact (congrArg (·.reg) raised.fixed).trans (congrArg (·.reg) told.fixed)
  · have checked := State.checkMissing_checked params passing
    unfold State.missingChecked at checked ⊢
    rwa [tick, roster] at checked
  · rw [← halt] at hr ⊢
    exact (raised.halts.of_held (.inl hr)).1
  · -- an own HALT of the checks finds room behind the REPORT, or one has been offered before
    have keeps : QueueKeeps x x.checkMissing := by
      rcases hl with hl | ⟨-, hr⟩
      · have := told.length
        have kept := raised.halts.keeps (show x.line.txQueue.length < 8 by omega)
        exact ⟨kept.stays, kept.reports⟩
      · have line := (raised.halts.of_held (.inl (halt ▸ hr))).2
        exact ⟨fun e he => by rwa [line], by rw [line]; rfl⟩
    refine ⟨fun h => ?_, fun h => ?_⟩
    · rw [if_pos h] at due
      obtain ⟨e, he, report⟩ := State.offerReport_inPass hs.inPass (hl.elim (by omega) And.left)
      exact ⟨e, keeps.stays e (due ▸ he), report⟩
    · rw [if_neg h] at due
      rw [keeps.reports, due]

end Sys2Proof.Machine
end

section
/-! PROOFS. The end of a pass (R109, R125): the watch, registration's verdict, the path position, and the cue
pulses of a clock that leaves COASTING or LOCAL with it (R43, R44, R178). -/

namespace Sys2Proof.Machine

/-! ## The cue lines at a change of node state -/

/-- A clock that leaves COASTING or LOCAL ends the pulses. -/
theorem State.clockExit_cues (s : State) :
    (s.clockLeaves s.engine.nodeState → s.clockExit.cues = Vector.ofFn fun i => s.cues[i].endPulse) ∧
    (¬ s.clockLeaves s.engine.nodeState → s.clockExit.cues = s.cues) := by
  unfold State.clockLeaves State.clockExit State.localStays
  cases s.clock.state <;> cases s.engine.nodeState.inPass <;> cases s.engine.nodeState.holdsLocal <;>
    cases s.localHolds <;> simp [State.enterFree, State.endPulses]

/-- In a pass the clock stays in COASTING and in LOCAL. -/
theorem State.clockExit_inPass {s : State} (hn : s.engine.nodeState.inPass = true)
    (hl : s.engine.nodeState.holdsLocal = true) : s.clockExit = s := by
  unfold State.clockExit State.localStays
  split
  · exact if_pos hn
  · exact if_pos (by simp [hl])
  all_goals rfl

theorem State.nodeBecomes_eq {ns : NodeState} (ha : ns ≠ .armed) (s : State) :
    s.nodeBecomes ns = (s.onEngine fun e => { e with nodeState := ns }).clockExit := by
  unfold State.nodeBecomes
  dsimp only
  rw [if_neg ha]

/-- A change of node state other than to ARMED ends the cue pulses where the clock leaves COASTING or LOCAL. -/
theorem State.nodeBecomes_cues {ns : NodeState} (ha : ns ≠ .armed) (s : State) :
    (s.clockLeaves ns → (s.nodeBecomes ns).cues = Vector.ofFn fun i => s.cues[i].endPulse) ∧
    (¬ s.clockLeaves ns → (s.nodeBecomes ns).cues = s.cues) := by
  rw [State.nodeBecomes_eq ha]
  exact (s.onEngine fun e => { e with nodeState := ns }).clockExit_cues

theorem State.enterNode_cues (ns : NodeState) (s : State) : (s.enterNode ns).cues = (s.nodeBecomes ns).cues := by
  rw [State.enterNode_eq]
  split <;> simp

/-- Into a pass the clock and the cue lines stand, and no REPORT is offered (R113). -/
theorem State.enterNode_inPass {ns : NodeState} (h : ns.inPass = true) (s : State) :
    s.enterNode ns = s.onEngine fun e => { e with nodeState := ns } := by
  have holds : ns.holdsLocal = true := by cases ns <;> simp_all [NodeState.inPass, NodeState.holdsLocal]
  have reports : ns.reportsEntry = false := by cases ns <;> simp_all [NodeState.inPass, NodeState.reportsEntry]
  have armed : ns ≠ .armed := by rintro rfl; simp [NodeState.inPass] at h
  rw [State.enterNode_eq, reports, State.nodeBecomes_eq armed, State.clockExit_inPass h holds]
  rfl

/-! ## The end of a pass -/

/-- What the end of a pass writes before the change of node state. -/
def State.passOver (pass : PassParams) (ending : PassEnding) (cause : Option HaltCause) (halt : HaltRecord)
    (s : State) : State :=
  { s with
    engine := { s.engine with
      path := { onPath := true, tPark := s.engine.moveTime, scale := pass.scale }, halt := halt }
    reg := s.reg.passEnded ending cause s.engine.halt.late
    roster := { s.roster with table := s.roster.table.map fun e => { e with watched := false } } }

theorem State.endPassEnded_eq {s : State} (h : s.engine.moveTime = s.store.tEnd) (pass : PassParams) :
    s.endPassEnded pass = (s.passOver pass .ended none
      { s.engine.halt with rampStart := none, cause := none }).enterNode .ended := by
  rw [State.passOver, h]
  rfl

theorem State.endPassHalted_eq (pass : PassParams) (s : State) : s.endPassHalted pass =
    (s.passOver pass .halted s.engine.halt.cause s.engine.halt).enterNode .halted := rfl

/-- LOCAL's conditions take no notice of the watch. -/
theorem State.passOver_localHolds (pass : PassParams) (ending : PassEnding) (cause : Option HaltCause)
    (halt : HaltRecord) (s : State) : (s.passOver pass ending cause halt).localHolds = s.localHolds := by
  have participant : RosterEntry.participant ∘ (fun e : RosterEntry => { e with watched := false }) =
      RosterEntry.participant := rfl
  simp only [State.localHolds, State.passOver, Roster.aloneParticipant, Roster.participantCount, List.countP_map,
    List.getElem?_map, Option.map_map, participant] <;> rfl

/-- A tick that ends the pass, from the end of its work. -/
structure TickEnds (pass : PassParams) (ns : NodeState) (ending : PassEnding) (cause : Option HaltCause)
    (halt : HaltRecord) (w u : State) : Prop where
  kept : TickKept w u
  nodeState : u.engine.nodeState = ns
  halt : u.engine.halt = halt
  path : u.engine.path = { onPath := true, tPark := w.engine.moveTime, scale := pass.scale }
  reg : u.reg = w.reg.passEnded ending cause w.engine.halt.late
  unwatched : ∀ e ∈ u.roster.table, e.watched = false
  cues : ∀ i : Fin 8,
    (¬ w.clockLeaves ns → u.cues[i] = w.cues[i]) ∧ (w.clockLeaves ns → u.cues[i] = w.cues[i].endPulse)

theorem TickEnds.of_passOver {ns : NodeState} (ha : ns ≠ .armed) (pass : PassParams) (ending : PassEnding)
    (cause : Option HaltCause) {halt : HaltRecord} {w : State} (hr : halt.rampIndex = w.engine.halt.rampIndex) :
    TickEnds pass ns ending cause halt w ((w.passOver pass ending cause halt).enterNode ns) := by
  have told := Tells.enterNode ns (w.passOver pass ending cause halt)
  have leaves : (w.passOver pass ending cause halt).clockLeaves ns ↔ w.clockLeaves ns := by
    unfold State.clockLeaves
    rw [State.passOver_localHolds]
    rfl
  obtain ⟨left, stayed⟩ := State.nodeBecomes_cues ha (w.passOver pass ending cause halt)
  rw [← State.enterNode_cues, leaves] at left stayed
  have kept := TickKept.of_tells told
  refine ⟨{ kept with rampIndex := kept.rampIndex.trans hr }, State.enterNode_nodeState .., ?_, ?_, ?_, ?_, ?_⟩
  · exact congrArg (·.engine.halt) told.fixed
  · exact congrArg (·.engine.path) told.fixed
  · exact congrArg (·.reg) told.fixed
  · have roster : ((w.passOver pass ending cause halt).enterNode ns).roster.table =
        w.roster.table.map fun e => { e with watched := false } := congrArg (·.roster.table) told.fixed
    rw [roster]
    simp
  · refine fun i => ⟨fun h => by rw [stayed h]; rfl, fun h => ?_⟩
    rw [left h]
    exact Vector.getElem_ofFn ..

theorem TickEnds.endPassEnded {w : State} (h : w.engine.moveTime = w.store.tEnd) (pass : PassParams) :
    TickEnds pass .ended .ended none { w.engine.halt with rampStart := none, cause := none } w
      (w.endPassEnded pass) := by
  rw [State.endPassEnded_eq h]
  exact .of_passOver (by decide) pass .ended none rfl

theorem TickEnds.endPassHalted (pass : PassParams) (w : State) :
    TickEnds pass .halted .halted w.engine.halt.cause w.engine.halt w (w.endPassHalted pass) := by
  rw [State.endPassHalted_eq]
  exact .of_passOver (by decide) pass .halted w.engine.halt.cause rfl

/-- What the claims say of the cue lines on a tick that ends the pass. -/
theorem TickEnds.cuesAtEnd {pass : PassParams} {ns : NodeState} {ending : PassEnding} {cause : Option HaltCause}
    {halt : HaltRecord} {s here w u : State} {prev : Option Nat} {time : Nat}
    (h : TickEnds pass ns ending cause halt w u) (hn : ns.inPass = false ∧ ns.holdsLocal = false)
    (hw : ∀ i : Fin 8, w.cues[i] = s.cueAfter prev time i) (hc : w.clock.state = s.clock.state)
    (hl : w.localHolds = here.localHolds) : s.cuesAtEnd here prev time u := by
  have leaves : w.clockLeaves ns ↔
      s.clock.state = .coasting ∨ s.clock.state = .localMarks ∧ here.localHolds = false := by
    simp [State.clockLeaves, hn, hc, hl]
  intro i
  obtain ⟨stays, ends⟩ := h.cues i
  rw [leaves, hw] at stays ends
  refine ⟨stays, fun hf hp => ?_, fun hf hp => ?_⟩
  · rw [ends hf, CueLine.endPulse, hp]
    rfl
  · rw [ends hf, CueLine.endPulse, if_pos (Option.isSome_iff_ne_none.2 hp)]

end Sys2Proof.Machine
end

section
/-! PROOFS. The pass tick (R46, R108, R124): its instant and index, and what one leaves at the full rate (O41) and
on the halt ramp (O42). -/

namespace Sys2Proof.Machine

/-! ## The tick that comes (R46, R177) -/

/-- The state once tick `j` is issued at `d`: the pulses are counted down. -/
def State.tickIssued (d j : Nat) (s : State) : State :=
  { s with now := max s.now d, clock := { s.clock with tickIndex := some j }, cues := s.countedCues }

theorem FrameClock.tickAt_of_tickComes {s : State} {j d p : Nat} (h : s.tickComes j d p) :
    s.clock.tickAt = some (d, j) := by
  obtain ⟨state, index, period, base, timing, rfl⟩ := h
  have ticking : s.clock.state.ticking = true := by
    rcases state with h | h | h | h <;> rw [h] <;> rfl
  have next : s.clock.nextTick = some j := by
    rw [FrameClock.nextTick, if_pos ticking]
    rcases index with ⟨h, rfl⟩ | ⟨k, h, hk, rfl⟩
    · simp [h]
    · simp [h, hk]
  simp [FrameClock.tickAt, next, timing, period]

theorem exec_passTick {s : State} {j d p : Nat} (h : s.tickComes j d p) : exec .passTick s = .next
    (if s.engine.nodeState.inPass then (s.tickIssued d j).passWork j (p / 16) else s.tickIssued d j) := by
  have duration : s.clock.tickDuration = p / 16 := by
    obtain ⟨-, -, period, -⟩ := h
    simp [FrameClock.tickDuration, period]
  have run : exec .passTick s =
      .next ((s.clock.tickAt.map fun x => (s.reach x.1).issueTick x.2).getD s) := by
    show execPassTick s = _
    unfold execPassTick
    cases s.clock.tickAt <;> rfl
  rw [run, FrameClock.tickAt_of_tickComes h, ← duration]
  rfl

/-- The pass tick taken, at a move time. -/
def State.tickTaken (duration time : Nat) (s : State) : State :=
  s.onEngine fun e => { e.takeTick duration with moveTime := time }

section
variable {s : State} {duration : Nat} {pass : PassParams} (hp : s.engine.params = some pass)
include hp

/-- The tick that a pass takes at the full rate, up to and including a held ramp start. -/
theorem State.passWork_running (hr : ∀ ramp, s.engine.halt.rampStart = some ramp →
      (s.engine.takeTick duration).tick ≤ ramp) (index : Nat) : s.passWork index duration =
    let x := (s.onEngine (Engine.takeTick duration)).runningTick pass index duration
    if x.engine.nodeState.inPass then x.checkMissing else x := by
  have held : (s.onEngine (Engine.takeTick duration)).engine.halt.rampStart = s.engine.halt.rampStart := rfl
  unfold State.passWork
  rw [hp]
  dsimp only
  rw [held]
  cases hs : s.engine.halt.rampStart with
  | none => rfl
  | some ramp =>
    have ahead : ¬ ramp < (s.onEngine (Engine.takeTick duration)).engine.tick := Nat.not_lt.2 (hr ramp hs)
    simp only [if_neg ahead]

/-- The tick that it takes past the ramp start. -/
theorem State.passWork_ramp {ramp : Nat} (hs : s.engine.halt.rampStart = some ramp)
    (hr : ramp < (s.engine.takeTick duration).tick) (index : Nat) : s.passWork index duration =
    let x := (s.onEngine (Engine.takeTick duration)).rampTick pass ramp index duration
    if x.engine.nodeState.inPass then x.checkMissing else x := by
  have held : (s.onEngine (Engine.takeTick duration)).engine.halt.rampStart = some ramp := hs
  have past : ramp < (s.onEngine (Engine.takeTick duration)).engine.tick := hr
  unfold State.passWork
  rw [hp]
  dsimp only
  rw [held]
  simp only [if_pos past]

end

/-- A pass tick at the full rate: its work, and then the pass ends ENDED or goes on (R108, R109). -/
theorem State.passWork_running_spec {s : State} (hs : s.Passing) {pass : PassParams}
    (hp : s.engine.params = some pass) (hn : s.engine.nodeState = .running) {duration time : Nat}
    (hr : ∀ ramp, s.engine.halt.rampStart = some ramp → (s.engine.takeTick duration).tick ≤ ramp)
    (ht : runningTime (s.engine.takeTick duration).tick pass.rate s.store.tEnd = time) (index : Nat) :
    ∃ w, TickWorked pass.scale index duration (s.tickTaken duration time) w ∧
      (time = s.store.tEnd → TickEnds pass .ended .ended none
        { w.engine.halt with rampStart := none, cause := none } w (s.passWork index duration)) ∧
      (time ≠ s.store.tEnd → TickGoesOn pass w (s.passWork index duration)) := by
  subst ht
  generalize ht : runningTime (s.engine.takeTick duration).tick pass.rate s.store.tEnd = time
  have passing : (s.tickTaken duration time).Passing := ⟨hs.inPass, hs.defaults⟩
  have worked := TickWorked.tickWork passing pass index duration
  generalize hw : (s.tickTaken duration time).tickWork pass index duration = w at worked
  have moveTime : w.engine.moveTime = time := congrArg (·.engine.moveTime) worked.raised.fixed
  have store : w.store = s.store := congrArg (·.store) worked.raised.fixed
  have node : w.engine.nodeState = .running := (congrArg (·.engine.nodeState) worked.raised.fixed).trans hn
  have params : w.engine.params = some pass := (congrArg (·.engine.params) worked.raised.fixed).trans hp
  have defaults : w.defaults := (congrArg (·.sup.dispositions) worked.raised.fixed).trans hs.defaults
  have run : (s.onEngine (Engine.takeTick duration)).runningTick pass index duration =
      if w.engine.moveTime = w.store.tEnd then w.endPassEnded pass else w.reportIfDue := by
    rw [← hw, ← ht]
    rfl
  have work := State.passWork_running hp hr index
  rw [run, moveTime, store] at work
  refine ⟨w, worked, fun hend => ?_, fun hon => ?_⟩
  · have ends := TickEnds.endPassEnded (w := w) (by rw [moveTime, store, hend]) pass
    rw [if_pos hend] at work
    simp only [ends.nodeState] at work
    rw [work]
    exact ends
  · have passing : w.Passing := ⟨by rw [node]; rfl, defaults⟩
    rw [if_neg hon] at work
    simp only [State.reportIfDue_nodeState params, if_pos passing.inPass] at work
    rw [work]
    exact .of_passing params passing

/-! ## The halt ramp (R124, R125) -/

/-- A tick of the ramp taken, at its index and move time. -/
def State.rampTaken (duration index time : Nat) (s : State) : State :=
  s.onEngine fun e => { e.takeTick duration with
    nodeState := .halting, halt := { e.halt with rampIndex := index }, moveTime := time }

theorem State.halting_entered (s : State) : (if s.engine.nodeState = .halting then s else s.enterNode .halting) =
    s.onEngine fun e => { e with nodeState := .halting } := by
  split
  next h => exact congrArg (fun ns => s.onEngine fun e => { e with nodeState := ns }) h
  · exact State.enterNode_inPass rfl s

/-- A pass tick past the ramp start: its work, and then the pass ends HALTED or goes on. -/
theorem State.passWork_ramp_spec {s : State} (hs : s.Passing) {pass : PassParams}
    (hp : s.engine.params = some pass) {duration ramp rampIndex time : Nat}
    (hr : s.engine.halt.rampStart = some ramp) (past : ramp < (s.engine.takeTick duration).tick)
    (hi : (s.engine.takeTick duration).tick - ramp = rampIndex)
    (ht : rampTime s.engine.moveTime pass.rate pass.haltLength rampIndex s.store.tEnd = time) (index : Nat) :
    ∃ w, TickWorked pass.scale index duration (s.rampTaken duration rampIndex time) w ∧
      (pass.haltLength ≤ rampIndex ∨ time = s.store.tEnd → TickEnds pass .halted .halted s.engine.halt.cause
        { s.engine.halt with rampIndex := rampIndex } w (s.passWork index duration)) ∧
      (¬ (pass.haltLength ≤ rampIndex ∨ time = s.store.tEnd) → TickGoesOn pass w (s.passWork index duration)) := by
  have passing : (s.rampTaken duration rampIndex time).Passing := ⟨rfl, hs.defaults⟩
  have worked := TickWorked.tickWork passing pass index duration
  generalize hw : (s.rampTaken duration rampIndex time).tickWork pass index duration = w at worked
  have moveTime : w.engine.moveTime = time := congrArg (·.engine.moveTime) worked.raised.fixed
  have store : w.store = s.store := congrArg (·.store) worked.raised.fixed
  have node : w.engine.nodeState = .halting := congrArg (·.engine.nodeState) worked.raised.fixed
  have params : w.engine.params = some pass := (congrArg (·.engine.params) worked.raised.fixed).trans hp
  have defaults : w.defaults := (congrArg (·.sup.dispositions) worked.raised.fixed).trans hs.defaults
  have halt : w.engine.halt = { s.engine.halt with rampIndex := rampIndex } :=
    (worked.raised.halts.of_held (.inl (by simp [State.withOutputs, State.rampTaken, hr]))).1
  have run : (s.onEngine (Engine.takeTick duration)).rampTick pass ramp index duration =
      if pass.haltLength ≤ w.engine.halt.rampIndex ∨ w.engine.moveTime = w.store.tEnd then w.endPassHalted pass
      else w.reportIfDue := by
    unfold State.rampTick
    rw [State.halting_entered, ← hw, ← ht, ← hi]
    rfl
  have work := State.passWork_ramp hp hr past index
  rw [run, moveTime, store, halt] at work
  refine ⟨w, worked, fun hend => ?_, fun hon => ?_⟩
  · have ends := TickEnds.endPassHalted pass w
    rw [if_pos hend] at work
    simp only [ends.nodeState] at work
    rw [work]
    rw [halt] at ends
    exact ends
  · have passing : w.Passing := ⟨by rw [node]; rfl, defaults⟩
    rw [if_neg hon] at work
    simp only [State.reportIfDue_nodeState params, if_pos passing.inPass] at work
    rw [work]
    exact .of_passing params passing

/-! ## The claims' readings -/

theorem State.missingChecked_of_table {s w u : State} (h : w.roster.table = s.roster.table) {interval n : Nat} :
    w.missingChecked interval n u ↔ s.missingChecked interval n u := by
  simp only [State.missingChecked, h]

theorem State.ownNumber_of_station {s : State} {own : Nat} (h : s.roster.station = some own) :
    s.ownNumber = own := by
  simp [State.ownNumber, h]

/-- In a pass a channel that is handed a target takes it, whatever its checks raise. -/
theorem State.handed_eq {s : State} (hs : s.Passing) (a : Fin 4) (target : Int) (duration : Nat) :
    s.handed a target duration = s.channelTakes a target duration := by
  rw [State.handed, (Raised.handTarget hs a target duration).axes]
  exact Vector.getElem_set_self ..

/-- What a tick's work leaves to be read when its pass has gone on or has ended: `here` is the state before it
at the tick's instant. -/
structure TickRead (evs : Fin 4 → Option AxisEval) (values : Fin 2 → Option Nat) (index duration n : Nat)
    (here u : State) : Prop where
  raised : here.raisedBy evs .pass n u
  handed : ∀ a ev, evs a = some ev → u.engine.holdTargets[a] = ev.target ∧
    u.axes[a] = here.handed a ev.target duration ∧
    (here.followsBadly a → u.latchedCause .followingError = true)
  others : ∀ a, evs a = none → u.axes[a] = here.axes[a]
  commanded : ∀ a : Fin 4, u.axes[a].commanded = here.axes[a].commanded
  levels : ∀ l v, values l = some v → index = 0 → u.levels[l].level = v ∧ u.levels[l].source = .evaluated ∧
    u.levels[l].activeDuty = here.levels[l].activeDuty
  levelsKept : ∀ l, values l = none ∨ index ≠ 0 → u.levels[l] = here.levels[l]

theorem TickRead.of_worked {scale index duration n : Nat} {here s w u : State} (hs : here.Passing)
    (fixed : s = { here with engine := s.engine, clock := s.clock, cues := s.cues }) (hn : s.engine.tick = n)
    (worked : TickWorked scale index duration s w) (kept : TickKept w u) :
    TickRead (here.store.evalAxis s.engine.moveTime scale) (here.store.evalLevel s.engine.moveTime) index duration
      n here u := by
  generalize s.engine = e, s.clock = clock, s.cues = cues at fixed hn
  subst fixed hn
  exact {
    raised := State.raisedBy_of_taken (s := here) (kept.evalMarks ▸ worked.taken)
    handed := fun a ev he => by
      obtain ⟨hold, axis, bad⟩ := worked.handed a ev he
      rw [kept.holdTargets, kept.axes, State.handed_eq hs]
      exact ⟨hold, axis, fun h => kept.latched _ (bad h).1⟩
    others := fun a he => by
      rw [kept.axes]
      exact worked.others a he
    commanded := fun a => by
      rw [kept.axes]
      exact (worked.fixed a).1
    levels := fun l v hv h0 => by
      obtain ⟨level, source, duty, -⟩ := (worked.levels.1 h0 l).1 v hv
      rw [kept.levels]
      exact ⟨level, source, duty⟩
    levelsKept := fun l hl => by
      rw [kept.levels]
      by_cases h0 : index = 0
      · exact (worked.levels.1 h0 l).2 (hl.resolve_right (not_not.2 h0))
      · rw [worked.levels.2 h0] }

end Sys2Proof.Machine

open Sys2Proof Sys2Proof.Machine

/-- Settles O42: by `State.passWork_ramp_spec`. -/
theorem rampTickSlowsThePass : Obligations.RampTickSlowsThePass := by
  unfold Obligations.RampTickSlowsThePass
  intro s j d p ramp pass hcomes hn hp hticked hd hr past
  have inPass : s.engine.nodeState.inPass = true := by rcases hn with h | h <;> rw [h] <;> rfl
  have tick : (s.engine.takeTick (p / 16)).tick = s.engine.tick + 1 := if_pos hticked
  have prev : (s.engine.takeTick (p / 16)).prevTime = some s.engine.moveTime := if_pos hticked
  dsimp only
  generalize ht : min (s.engine.moveTime + pass.rate * (pass.haltLength - (s.engine.tick + 1 - ramp)) /
    pass.haltLength) s.store.tEnd = time
  obtain ⟨w, worked, ends, goesOn⟩ := State.passWork_ramp_spec (s := s.tickIssued d j) (duration := p / 16)
    (rampIndex := s.engine.tick + 1 - ramp) ⟨inPass, hd⟩ hp hr (by exact tick ▸ past)
    (congrArg (· - ramp) tick) ht j
  have run := exec_passTick hcomes
  rw [if_pos inPass] at run
  generalize (s.tickIssued d j).passWork j (p / 16) = u at run ends goesOn
  -- a held ramp start keeps the halt record and the queue through the work
  obtain ⟨halt, line⟩ := worked.raised.halts.of_held
    (.inl (by simp [State.withOutputs, State.rampTaken, State.tickIssued, hr]))
  have halting : w.engine.halt.rampStart = some ramp := (congrArg (·.rampStart) halt).trans hr
  have fixed := worked.raised.fixed
  have node : w.engine.nodeState = .halting := congrArg (·.engine.nodeState) fixed
  have n : w.engine.tick = s.engine.tick + 1 := (congrArg (·.engine.tick) fixed).trans tick
  have moveTime : w.engine.moveTime = time := congrArg (·.engine.moveTime) fixed
  have cues (i : Fin 8) : w.cues[i] = s.cueAfter (some s.engine.moveTime) time i := by
    rw [← prev]
    exact worked.cues i
  have kept : TickKept w u := by
    by_cases hend : pass.haltLength ≤ s.engine.tick + 1 - ramp ∨ time = s.store.tEnd
    · exact (ends hend).kept
    · exact (goesOn hend).kept
  have rampStart : u.engine.halt.rampStart = some ramp := by
    by_cases hend : pass.haltLength ≤ s.engine.tick + 1 - ramp ∨ time = s.store.tEnd
    · rw [(ends hend).halt]
      exact hr
    · rw [(goesOn hend).halt (by simp [halting]), halting]
  have read := TickRead.of_worked (here := { s with now := max s.now d }) ⟨inPass, hd⟩ rfl tick worked kept
  refine ⟨u, run, kept.tick.1.trans n, kept.rampIndex.trans (congrArg (·.rampIndex) halt), rampStart,
    kept.tick.2.2.2.2.1.trans moveTime, kept.tick.2.2.1.trans (congrArg (·.engine.tickDuration) fixed),
    kept.store.trans (congrArg (·.store) fixed), read.raised, fun a ev he => ?_, read.others, fun l v hv h0 => ?_,
    read.levelsKept, fun hend => ?_, fun h1 h2 => ?_⟩
  · obtain ⟨hold, axis, -⟩ := read.handed a ev he
    exact ⟨hold, axis⟩
  · obtain ⟨level, source, -⟩ := read.levels l v hv h0
    exact ⟨level, source⟩
  · have ended := ends hend
    refine ⟨ended.nodeState, moveTime ▸ ended.path, ?_, ?_, ended.unwatched⟩
    · rw [ended.reg, halt]
      exact congrArg (Registration.passEnded _ _ _) (congrArg (·.reg) fixed)
    · exact ended.cuesAtEnd ⟨rfl, rfl⟩ cues (congrArg (·.clock.state) fixed) (congrArg (·.localHolds) fixed)
  · have goes := goesOn (not_or.2 ⟨Nat.not_le.2 h1, h2⟩)
    refine ⟨goes.nodeState.trans node, goes.reg.trans (congrArg (·.reg) fixed), fun i => goes.cues ▸ cues i, ?_,
      fun own frame hown hl hf => ?_⟩
    · have table : w.roster.table = s.roster.table := congrArg (·.roster.table) fixed
      rw [← State.missingChecked_of_table table, ← n]
      exact goes.missing
    · have number : w.ownNumber = own :=
        (congrArg (·.ownNumber) fixed).trans (State.ownNumber_of_station hown)
      have room : w.line.txQueue.length < 8 := by
        rw [line]
        exact hl
      obtain ⟨e, he, owner, sending, payload⟩ := (goes.reports (.inr ⟨room, by simp [halting]⟩)).1
        (by rw [number, n]; exact reportTick_iff.2 ⟨frame, hf⟩)
      refine ⟨e, he, owner, sending, ?_⟩
      rw [payload, State.reportPayload_code, node]
      rfl

/-- Settles O41: by `State.passWork_running_spec`. -/
theorem passTickAdvancesThePass : Obligations.PassTickAdvancesThePass := by
  unfold Obligations.PassTickAdvancesThePass
  intro s j d p hcomes
  have run := exec_passTick hcomes
  refine ⟨fun out => ?_, fun pass hn hp hd => ?_⟩
  · rw [run, out]
    rfl
  have inPass : s.engine.nodeState.inPass = true := by rw [hn]; rfl
  rw [if_pos inPass] at run
  intro tick prev time here ahead
  obtain ⟨w, worked, ends, goesOn⟩ := State.passWork_running_spec (s := s.tickIssued d j) (duration := p / 16)
    (time := time) ⟨inPass, hd⟩ hp hn ahead rfl j
  generalize (s.tickIssued d j).passWork j (p / 16) = u at run ends goesOn
  have fixed := worked.raised.fixed
  have kept : TickKept w u := by
    by_cases hend : time = s.store.tEnd
    · exact (ends hend).kept
    · exact (goesOn hend).kept
  have read := TickRead.of_worked (here := here) ⟨inPass, hd⟩ rfl rfl worked kept
  have node : w.engine.nodeState = .running := (congrArg (·.engine.nodeState) fixed).trans hn
  have n : w.engine.tick = tick := congrArg (·.engine.tick) fixed
  have moveTime : w.engine.moveTime = time := congrArg (·.engine.moveTime) fixed
  have cues (i : Fin 8) : w.cues[i] = s.cueAfter prev time i := worked.cues i
  have halted (hr : w.engine.halt.rampStart ≠ none) (hon : time ≠ s.store.tEnd) :
      u.engine.halt = w.engine.halt := (goesOn hon).halt hr
  refine ⟨u, run, kept.now.trans (congrArg (·.now) fixed), kept.tick.1.trans n,
    kept.tick.2.1.trans (congrArg (·.engine.ticked) fixed),
    kept.tick.2.2.1.trans (congrArg (·.engine.tickDuration) fixed),
    kept.tick.2.2.2.2.1.trans moveTime, kept.roll.trans (congrArg (·.clock.roll) fixed),
    kept.store.trans (congrArg (·.store) fixed), read.raised, fun a ev he hc hr hon => ?_, fun a ev he => ?_,
    read.others, read.commanded, fun l v hv h0 => read.levels l v hv h0,
    read.levelsKept, fun hend => ?_, fun hon => ?_⟩
  · have halts := worked.clamped a ev he hc hn hr
    rw [halted (by simp [halts.1]) hon]
    exact halts
  · obtain ⟨hold, axis, bad⟩ := read.handed a ev he
    refine ⟨hold, axis, fun hb => ⟨bad hb, fun hon => ?_⟩⟩
    have halts := ((worked.handed a ev he).2.2 hb).2 hn
    rw [halted halts hon]
    exact halts
  · have ended := ends hend
    refine ⟨ended.nodeState, congrArg (·.rampStart) ended.halt, moveTime ▸ ended.path, ?_, ?_, ended.unwatched⟩
    · have late : w.engine.halt.late = s.engine.halt.late := congrArg (·.engine.halt.late) fixed
      rw [ended.reg, late]
      exact congrArg (Registration.passEnded _ _ _) (congrArg (·.reg) fixed)
    · exact ended.cuesAtEnd ⟨rfl, rfl⟩ cues (congrArg (·.clock.state) fixed) (congrArg (·.localHolds) fixed)
  · have goes := goesOn hon
    have table : w.roster.table = s.roster.table := congrArg (·.roster.table) fixed
    refine ⟨goes.nodeState.trans node, (congrArg (·.tickIndex) goes.clock).trans (congrArg (·.clock.tickIndex) fixed),
      goes.reg.trans (congrArg (·.reg) fixed), fun i => goes.cues ▸ cues i, ?_, fun own hown hl => ?_⟩
    · rw [← State.missingChecked_of_table table, ← n]
      exact goes.missing
    · have number : w.ownNumber = own := (congrArg (·.ownNumber) fixed).trans (State.ownNumber_of_station hown)
      have roll : w.clock.roll = s.clock.roll := congrArg (·.clock.roll) fixed
      have start : w.passStart = pass.startFrame := by
        rw [State.passStart, (congrArg (·.engine.params) fixed).trans hp]
      have kept := worked.raised.halts.keeps (Nat.lt_succ_of_lt hl)
      obtain ⟨due, undue⟩ := goes.reports (worked.raised.halts.room hl)
      rw [number, n, reportTick_iff] at due
      rw [number, n, ne_eq, reportTick_iff] at undue
      refine ⟨fun h => ?_, fun h => (undue (not_exists.2 h)).trans kept.reports⟩
      obtain ⟨e, he, owner, sending, payload⟩ := due h
      rw [← roll, ← start]
      refine ⟨e, he, owner, sending, ?_, ?_, ?_⟩
      · rw [payload, State.reportPayload_length]
      · rw [payload, State.reportPayload_code, node]
        rfl
      · rw [payload, State.reportPayload_position]

end

section
/-! PROOFS. What mark F does to registration (R154, R156, R157, R161, R163) and to the channels' frames (R147). -/

namespace Sys2Proof.Machine

/-! ## The buffer in the capture role -/

section
variable (b : CaptureBuffer) (r : Registration)

@[simp] theorem Registration.setCapture_capture : (r.setCapture b).capture = b := by
  unfold Registration.setCapture Registration.capture
  cases r.captureFirst <;> simp

@[simp] theorem Registration.setCapture_reference : (r.setCapture b).reference = r.reference := by
  unfold Registration.setCapture Registration.reference
  cases r.captureFirst <;> simp

/-- Nothing but a buffer changes. -/
theorem Registration.setCapture_eq : r.setCapture b = { r with
    buffer1 := (r.setCapture b).buffer1, buffer2 := (r.setCapture b).buffer2 } := by
  unfold Registration.setCapture
  split <;> rfl

end

/-! ## The newest summary -/

section
variable (f : Summary → Summary) (h : List Summary)

theorem updateNewest_append (x : Summary) : updateNewest f (h ++ [x]) = h ++ [f x] := by
  induction h with
  | nil => rfl
  | cons y h ih =>
    cases h with
    | nil => rfl
    | cons z h => exact congrArg (y :: ·) ih

end

/-- The history with a new summary keeps the newest seven before it. -/
theorem addSummary_eq (x : Summary) (h : List Summary) : addSummary x h = h.drop (h.length - 7) ++ [x] := by
  unfold addSummary
  split
  next full => rfl
  next room =>
    have none : h.length - 7 = 0 := by simp only [Config.historyCapacity] at room; omega
    rw [none, List.drop_zero]

/-! ## A pass's registration (R154, R157, R163) -/

/-- Registration `r'` has begun the pass of these parameters from `r`, nothing of it recorded yet. -/
structure Registration.Begun (pass : PassParams) (number : Nat) (r r' : Registration) : Prop where
  openFrame : r'.openFrame = some 0
  lists : r'.deviations = [] ∧ r'.listPass = number ∧ r'.overflow = 0 ∧ r'.comparisons = 0 ∧ r'.grossSeen = false
  comparable : r'.comparable = true ↔ ∃ d, r.reference.holds = some d ∧ d.rate = pass.rate ∧ d.scale = pass.scale
  axes : ∀ a : Fin 4, r'.compared[a] = false ∧ r'.maxima[a] = ⟨0, none⟩
  reference : r'.reference = r.reference
  frames : r'.capture.frames = r.capture.frames
  holds : r'.capture.holds.map (fun d => (d.passNumber, d.rate, d.scale, d.framesRecorded)) =
    some (number, pass.rate, pass.scale, 0)
  sources : ∀ d, r'.capture.holds = some d → ∀ a : Fin 4, d.sources[a] = none
  history : r'.history.dropLast = r.history.drop (r.history.length - 7)
  newest : r'.history.getLast?.map (fun x => (x.passNumber, x.startFrame, x.rate, x.scale, x.comparable)) =
    some (number, pass.startFrame, pass.rate, pass.scale, r'.comparable)

namespace Registration

theorem comparableWith_iff {r : Registration} {rate scale : Nat} : r.comparableWith rate scale = true ↔
    ∃ d, r.reference.holds = some d ∧ d.rate = rate ∧ d.scale = scale := by
  unfold comparableWith
  cases r.reference.holds <;> simp

theorem Begun.passBegun (pass : PassParams) (number : Nat) (r : Registration) :
    Begun pass number r (r.passBegun number pass.startFrame pass.rate pass.scale) := by
  have capture : (r.passBegun number pass.startFrame pass.rate pass.scale).capture = { r.capture with
      holds := some { passNumber := number, rate := pass.rate, scale := pass.scale, framesRecorded := 0
                      sources := Vector.ofFn fun _ => none, ending := .inProgress } } :=
    setCapture_capture ..
  have history : (r.passBegun number pass.startFrame pass.rate pass.scale).history =
      r.history.drop (r.history.length - 7) ++
        [.begun number pass.startFrame pass.rate pass.scale (r.comparableWith pass.rate pass.scale)] := by
    rw [← addSummary_eq]
    exact congrArg (addSummary _) (setCapture_history ..)
  exact {
    openFrame := rfl
    lists := ⟨rfl, rfl, rfl, rfl, rfl⟩
    comparable := comparableWith_iff
    axes := fun a => ⟨Vector.getElem_ofFn .., Vector.getElem_ofFn ..⟩
    reference := setCapture_reference ..
    frames := by rw [capture]
    holds := by rw [capture]; rfl
    sources := fun d hd a => by
      rw [capture] at hd
      cases hd
      exact Vector.getElem_ofFn ..
    history := by rw [history, List.dropLast_concat]
    newest := by rw [history, List.getLast?_concat]; rfl }

theorem passBegun_recording (pass : PassParams) (number : Nat) (r : Registration) :
    (r.passBegun number pass.startFrame pass.rate pass.scale).recording = true ∧
    (r.passBegun number pass.startFrame pass.rate pass.scale).history.getLast?.map Summary.ending =
      some .inProgress := by
  simp [Registration.passBegun, addSummary_eq, Summary.begun]

/-- A pass that ends with no frame recorded makes no reference. -/
theorem passEnded_unswapped {r : Registration} (ending : PassEnding) (cause : Option HaltCause) (late : Bool)
    (h : r.captureFrames = 0) : ∃ c : Registration, r.passEnded ending cause late = { r.setCapture { r.capture with
      holds := r.capture.holds.map fun d => { d with ending := ending } } with
      recording := false, history := updateNewest (c.complete ending cause late) r.history } := by
  obtain ⟨c, hc⟩ : ∃ c : Registration, c = { r.setCapture { r.capture with
    holds := r.capture.holds.map fun d => { d with ending := ending } } with recording := false } := ⟨_, rfl⟩
  have closed : ({ r with recording := false } : Registration).setCapture
      { ({ r with recording := false } : Registration).capture with
        holds := ({ r with recording := false } : Registration).capture.holds.map fun d =>
          { d with ending := ending } } = c := by
    rw [hc]
    unfold setCapture capture
    cases r.captureFirst <;> rfl
  have frames : c.captureFrames = 0 := by
    have capture : c.capture = { r.capture with
        holds := r.capture.holds.map fun d => { d with ending := ending } } := by
      rw [hc]
      exact setCapture_capture ..
    rw [captureFrames] at h
    rw [captureFrames, capture]
    cases hd : r.capture.holds <;> simp_all
  have history : c.history = r.history := by
    rw [hc]
    exact setCapture_history ..
  refine ⟨c, ?_⟩
  unfold passEnded
  dsimp only
  rw [closed, if_neg, history, hc]
  rintro ⟨-, -, some⟩
  exact absurd frames (Nat.ne_of_gt some)

/-- Such a pass leaves the buffers their roles (R161, R162). -/
theorem Begun.passEnded {pass : PassParams} {number : Nat} {r r' : Registration} (h : Begun pass number r r')
    (late : Bool) : Begun pass number r (r'.passEnded .ended none late) ∧
      (r'.passEnded .ended none late).recording = false ∧
      (r'.passEnded .ended none late).history.getLast?.map Summary.ending = some .ended := by
  obtain ⟨d, hd, hf⟩ := Option.map_eq_some_iff.1 h.holds
  have none : r'.captureFrames = 0 := by
    simp only [Prod.mk.injEq] at hf
    simp [captureFrames, hd, hf]
  obtain ⟨c, ended⟩ := passEnded_unswapped .ended Option.none late none
  obtain ⟨x, hx⟩ : ∃ x, r'.history.getLast? = some x := by
    obtain ⟨x, hx, -⟩ := Option.map_eq_some_iff.1 h.newest
    exact ⟨x, hx⟩
  obtain ⟨before, history⟩ := List.getLast?_eq_some_iff.1 hx
  have newest := h.newest
  have dropped := h.history
  rw [history, List.getLast?_concat] at newest
  rw [history, List.dropLast_concat] at dropped
  rw [history, updateNewest_append] at ended
  have capture := r'.setCapture_capture { r'.capture with
    holds := r'.capture.holds.map fun d => { d with ending := .ended } }
  have reference := r'.setCapture_reference { r'.capture with
    holds := r'.capture.holds.map fun d => { d with ending := .ended } }
  have fixed := r'.setCapture_eq { r'.capture with
    holds := r'.capture.holds.map fun d => { d with ending := .ended } }
  generalize r'.setCapture { r'.capture with
    holds := r'.capture.holds.map fun d => { d with ending := .ended } } = e at ended capture reference fixed
  have kept : (r'.passEnded .ended Option.none late).capture = e.capture ∧
      (r'.passEnded .ended Option.none late).reference = e.reference := by
    rw [ended]
    exact ⟨rfl, rfl⟩
  rw [fixed] at ended
  generalize r'.passEnded .ended Option.none late = q at ended kept
  obtain ⟨sameCapture, sameReference⟩ := kept
  rw [capture] at sameCapture
  rw [reference] at sameReference
  refine ⟨?_, by rw [ended], by rw [ended]; simp [complete]⟩
  exact {
    openFrame := by rw [ended]; exact h.openFrame
    lists := by rw [ended]; exact h.lists
    comparable := by rw [ended]; exact h.comparable
    axes := fun a => by rw [ended]; exact h.axes a
    reference := sameReference.trans h.reference
    frames := (congrArg CaptureBuffer.frames sameCapture).trans h.frames
    holds := by
      rw [sameCapture, ← h.holds, hd]
      rfl
    sources := fun d' hd' a => by
      rw [sameCapture, hd] at hd'
      cases hd'
      exact h.sources d hd a
    history := by
      rw [ended, ← dropped]
      exact List.dropLast_concat
    newest := by
      rw [ended]
      simpa [complete] using newest }

end Registration

end Sys2Proof.Machine
end

section
/-! PROOFS. The counted mark that begins a pass (R45, R47, R107 to R110, R147; O35). -/

namespace Sys2Proof.Machine

/-! ## The frame closed by a mark (R148, R156) -/

/-- Midpoints leave the reference and the history. -/
theorem Registration.write_roles (frame : Nat) (a : Fin 4) (m : Midpoint) (r : Registration) :
    (r.write frame a m).reference = r.reference := by
  unfold Registration.write
  dsimp only
  split <;> exact Registration.setCapture_reference ..

theorem Registration.addDeviation_reference (e : DeviationEntry) (r : Registration) :
    (r.addDeviation e).reference = r.reference := by
  unfold Registration.addDeviation
  split <;> rfl

theorem Registration.compare_reference (tolerance frame : Nat) (a : Fin 4) (m : Midpoint) (r : Registration) :
    (r.compare tolerance frame a m).1.reference = r.reference := by
  unfold Registration.compare
  split
  · split
    · dsimp only
      split
      · rfl
      · split <;> exact Registration.addDeviation_reference ..
    · rfl
  · rfl

/-- From `s` to `t` midpoints have reached registration: the reference and the history stand, and beside it
supervision alone may have changed, its dispositions apart. -/
structure Exposed (s t : State) : Prop where
  fixed : t = { s with reg := t.reg, sup := t.sup }
  dispositions : t.sup.dispositions = s.sup.dispositions
  reference : t.reg.reference = s.reg.reference
  history : t.reg.history = s.reg.history

namespace Exposed

theorem refl (s : State) : Exposed s s := ⟨rfl, rfl, rfl, rfl⟩

theorem trans {s t u : State} (h : Exposed s t) (k : Exposed t u) : Exposed s u where
  fixed := by
    have hk := k.fixed
    rw [h.fixed] at hk
    exact hk
  dispositions := k.dispositions.trans h.dispositions
  reference := k.reference.trans h.reference
  history := k.history.trans h.history

theorem onReg {s : State} {f : Registration → Registration} (hr : (f s.reg).reference = s.reg.reference)
    (hh : (f s.reg).history = s.reg.history) : Exposed s (s.onReg f) := ⟨rfl, rfl, hr, hh⟩

theorem raise_warn {s : State} {c : Cause} (h : s.sup.disposition c = .warn) (a : Option (Fin 4))
    (n : Option Nat) : Exposed s (s.raise c a n) := by
  rw [State.raise_warn a n h]
  exact ⟨rfl, congrArg (·.dispositions) (Supervision.latch_eq c a n s.sup), rfl, rfl⟩

theorem onClock {s t : State} (h : Exposed s t) (f : FrameClock → FrameClock) :
    Exposed (s.onClock f) (t.onClock f) :=
  ⟨congrArg (State.onClock f) h.fixed, h.dispositions, h.reference, h.history⟩

theorem takeMidpoint {s : State} (hd : s.defaults) (frame : Nat) (a : Fin 4) (m : Midpoint) :
    Exposed s (s.takeMidpoint frame a m) := by
  unfold State.takeMidpoint
  refine RaiseClosed.of_ite (fun _ => refl s) fun _ =>
    RaiseClosed.of_ite (fun _ => ⟨rfl, rfl, rfl, rfl⟩) fun _ => ?_
  dsimp only
  have compared : Exposed s (s.onReg fun _ =>
      ((s.reg.write frame a m).compare (s.store.tolerance a) frame a m).1) :=
    onReg ((Registration.compare_reference ..).trans (Registration.write_roles ..))
      ((Registration.compare_keeps ..).2.2.1.trans (Registration.write_lists ..).2)
  refine compared.trans (RaiseClosed.of_ite (fun _ => ?_) fun _ => refl _)
  exact raise_warn (s := s.onReg _) (c := .grossDeviation) (State.disposition_of_defaults hd) ..

theorem foldl {α : Type} {f : State → α → State} (hf : ∀ s a, s.defaults → Exposed s (f s a)) (l : List α)
    {s : State} (hd : s.defaults) : Exposed s (l.foldl f s) := by
  induction l generalizing s with
  | nil => exact refl s
  | cons a l ih =>
    have first := hf s a hd
    exact first.trans (ih (first.dispositions.trans hd))

theorem takeMidpoints {s : State} (hd : s.defaults) (ms : Vector (Option Midpoint) 4) :
    Exposed s (s.takeMidpoints ms) := by
  unfold State.takeMidpoints
  split
  next frame _ _ =>
    refine RaiseClosed.of_ite (fun _ => refl s) fun _ => ?_
    dsimp only
    have cleared : Exposed s (if frame < Config.bufferFrames then s.onReg (.clearRow frame) else s) :=
      RaiseClosed.of_ite (fun _ => onReg (Registration.setCapture_reference ..)
        (Registration.setCapture_history ..)) fun _ => refl s
    refine (cleared.trans (foldl (fun s a hd => ?_) axisOrder (cleared.dispositions.trans hd))).trans
      (RaiseClosed.of_ite (fun _ => onReg (Registration.setCapture_reference ..)
        (Registration.setCapture_history ..)) fun _ => refl _)
    split
    · exact takeMidpoint hd ..
    · exact refl s
  · exact refl s

end Exposed

theorem State.takeMidpoints_standby {s : State} (h : s.reg.recording = false) (ms : Vector (Option Midpoint) 4) :
    s.takeMidpoints ms = s := by
  unfold State.takeMidpoints
  rw [h]

/-! ## The channels' OPEN (R147) -/

theorem AxisChannel.captureValue_eq (now : Nat) (source : CaptureSource) (x : AxisChannel) :
    x.captureValue now source = x.captured now source := by
  cases source <;> rfl

/-- The frame that an OPEN leaves a channel with. -/
theorem AxisChannel.openFrame_capture (now roll : Nat) (x : AxisChannel) : (x.openFrame now roll).openCapture =
    some { value := x.captured now (if 0 < x.setup.ratio then .encoder else .commanded), roll := roll
           source := if 0 < x.setup.ratio then .encoder else .commanded } := by
  simp only [AxisChannel.openFrame, AxisChannel.captureValue_eq, AxisChannel.captureSource]

/-! ## The watch of a pass (R30) -/

theorem watchOthers_getElem? (own : Option Nat) (k : Nat) (es : List RosterEntry) (i : Nat) :
    (watchOthers own k es)[i]? = es[i]?.map fun e => if e.participant = true ∧ own ≠ some (k + i) then
      { e with watched := true, missingRun := 0, misalignedRun := 0, heard := false } else e := by
  induction es generalizing k i with
  | nil => rfl
  | cons e es ih =>
    cases i with
    | zero => simp [watchOthers]
    | succ i =>
      have next := ih (k + 1) i
      rw [Nat.add_right_comm] at next
      simpa [watchOthers, Nat.add_assoc] using next

/-! ## Mark F (R107, R118, R154) -/

/-- The state that mark F leaves a PENDING node in, before tick 0. -/
def State.passStarted (pass : PassParams) (s : State) : State :=
  { s with
    engine := { s.engine with
      nodeState := .running, tick := 0, moveTime := 0, prevTime := none, ticked := false
      passNumber := nextPassNumber s.engine.passNumber
      halt := { rampStart := none, cause := none, ownHalt := none, rampIndex := 0, late := false } }
    line := { s.line with txQueue := s.line.txQueue.map TxEntry.forgetHalt }
    roster := { s.roster with table := watchOthers s.roster.ownPosition 0 s.roster.table }
    reg := s.reg.passBegun (nextPassNumber s.engine.passNumber) pass.startFrame pass.rate pass.scale }

theorem State.beginPass_eq (pass : PassParams) (s : State) : s.beginPass pass = s.passStarted pass := by
  unfold State.beginPass
  dsimp only
  rw [State.enterNode_inPass rfl]
  rfl

theorem State.engineMark_eq {s : State} {pass : PassParams} (hn : s.engine.nodeState = .pending)
    (hp : s.engine.params = some pass) (hr : s.clock.roll = pass.startFrame) (hf : s.clock.state.follows = true) :
    s.engineMark = s.passStarted pass := by
  have out : ¬ s.engine.nodeState.inPass = true := by simp [hn, NodeState.inPass]
  unfold State.engineMark
  rw [if_neg out, hn, hp]
  exact (if_pos ⟨hr, hf⟩).trans (State.beginPass_eq ..)

/-! ## Ticks outside a pass (R47, R177) -/

/-- Outside a pass the ticks of a frame count the pulses down. -/
theorem State.catchUp_pending {s : State} (h : s.engine.nodeState.inPass = false) (fuel : Nat) :
    ∃ index cues, s.catchUp fuel = { s with clock := { s.clock with tickIndex := index }, cues := cues } := by
  induction fuel generalizing s with
  | zero => exact ⟨_, _, rfl⟩
  | succ fuel ih =>
    unfold State.catchUp
    split
    next j _ =>
      have issued : s.issueTick j =
          { s with clock := { s.clock with tickIndex := some j }, cues := s.countedCues } :=
        if_neg (Bool.eq_false_iff.1 h)
      rw [issued]
      exact ih (s := { s with clock := { s.clock with tickIndex := some j }, cues := s.countedCues }) h
    · exact ⟨_, _, rfl⟩

/-! ## The counted mark that begins a pass -/

/-- Tick 0 of the pass that the mark has begun, at the clock's period. -/
def State.firstTick (pass : PassParams) (period : Nat) (s : State) : State :=
  ({ s.passStarted pass with
    clock := { s.clock with tickIndex := some 0 }, cues := s.countedCues } : State).passWork 0 (period / 16)

/-- From `s`, with the mark taken by the channels and the clock, to `u` the pass has begun and its tick 0 is
taken. -/
structure PassBegan (pass : PassParams) (period : Nat) (s u : State) : Prop where
  now : u.now = s.now
  roll : u.clock.roll = s.clock.roll
  tick : u.engine.tick = 0 ∧ u.engine.moveTime = 0 ∧ u.engine.ticked = true ∧ u.engine.prevTime = none ∧
    u.engine.tickDuration = period / 16 ∧ u.engine.passNumber = nextPassNumber s.engine.passNumber
  registered : Registration.Begun pass (nextPassNumber s.engine.passNumber) s.reg u.reg
  captures : ∀ a : Fin 4, u.axes[a].openCapture = s.axes[a].openCapture
  running : s.store.tEnd ≠ 0 → u.engine.nodeState = .running ∧ u.clock.tickIndex = some 0 ∧
    u.reg.recording = true ∧ u.reg.history.getLast?.map Summary.ending = some .inProgress ∧
    ∀ (i : Nat) (e : RosterEntry), s.roster.table[i]? = some e → u.roster.table[i]? = some
      (if e.participant = true ∧ s.roster.ownPosition ≠ some i then
        { e with watched := true, missingRun := 0, misalignedRun := 0, heard := false }
      else e)
  ended : s.store.tEnd = 0 → u.engine.nodeState = .ended ∧
    u.engine.path = { onPath := true, tPark := 0, scale := pass.scale } ∧ u.reg.recording = false ∧
    u.reg.history.getLast?.map Summary.ending = some .ended ∧
    ∀ (i : Nat) (e : RosterEntry), u.roster.table[i]? = some e → e.watched = false

/-- No missing-report check is due on tick 0 (R32). -/
theorem not_reportInstant_zero (number interval frame : Nat) : ¬ reportInstant number interval 0 frame := by
  rintro ⟨h, -⟩
  omega

theorem PassBegan.firstTick {s : State} (hd : s.defaults) {pass : PassParams}
    (hp : s.engine.params = some pass) (period : Nat) : PassBegan pass period s (s.firstTick pass period) := by
  unfold State.firstTick
  generalize hy : ({ s.passStarted pass with
    clock := { s.clock with tickIndex := some 0 }, cues := s.countedCues } : State) = y
  have zero : runningTime (y.engine.takeTick (period / 16)).tick pass.rate y.store.tEnd = 0 := by
    rw [← hy]
    simp [runningTime, State.passStarted, Engine.takeTick]
  obtain ⟨now, roll, index, store, axes, reg, number, table, passing, params, node, halt, ticked⟩ :
      y.now = s.now ∧ y.clock.roll = s.clock.roll ∧ y.clock.tickIndex = some 0 ∧ y.store = s.store ∧
      y.axes = s.axes ∧
      y.reg = s.reg.passBegun (nextPassNumber s.engine.passNumber) pass.startFrame pass.rate pass.scale ∧
      y.engine.passNumber = nextPassNumber s.engine.passNumber ∧
      y.roster.table = watchOthers s.roster.ownPosition 0 s.roster.table ∧ y.Passing ∧
      y.engine.params = some pass ∧ y.engine.nodeState = .running ∧ y.engine.halt.rampStart = none ∧
      y.engine.takeTick (period / 16) = { y.engine with
        tick := 0, ticked := true, tickDuration := period / 16, prevTime := none } := by
    rw [← hy]
    exact ⟨rfl, rfl, rfl, rfl, rfl, rfl, rfl, rfl, ⟨rfl, hd⟩, hp, rfl, rfl, rfl⟩
  obtain ⟨w, worked, ends, goesOn⟩ := State.passWork_running_spec (duration := period / 16) passing params node
    (by simp [halt]) zero 0
  generalize y.passWork 0 (period / 16) = u at ends goesOn
  have kept : TickKept w u := by
    by_cases hend : 0 = y.store.tEnd
    · exact (ends hend).kept
    · exact (goesOn hend).kept
  have fixed := worked.raised.fixed
  have begun := Registration.Begun.passBegun pass (nextPassNumber s.engine.passNumber) s.reg
  rw [← reg] at begun
  have wReg : w.reg = y.reg := congrArg (·.reg) fixed
  rw [store] at ends goesOn
  refine ⟨?_, ?_, ?_, ?_, fun a => ?_, fun hend => ?_, fun hend => ?_⟩
  · exact (kept.now.trans (congrArg (·.now) fixed)).trans now
  · exact (kept.roll.trans (congrArg (·.clock.roll) fixed)).trans roll
  · obtain ⟨tick, isTicked, duration, prev, moveTime, pass⟩ := kept.tick
    have engine : w.engine.tick = 0 ∧ w.engine.ticked = true ∧ w.engine.tickDuration = period / 16 ∧
        w.engine.prevTime = none := by
      rw [fixed]
      show (y.engine.takeTick (period / 16)).tick = 0 ∧ (y.engine.takeTick (period / 16)).ticked = true ∧
        (y.engine.takeTick (period / 16)).tickDuration = period / 16 ∧
        (y.engine.takeTick (period / 16)).prevTime = none
      rw [ticked]
      exact ⟨rfl, rfl, rfl, rfl⟩
    exact ⟨tick.trans engine.1, moveTime.trans (congrArg (·.engine.moveTime) fixed), isTicked.trans engine.2.1,
      prev.trans engine.2.2.2, duration.trans engine.2.2.1,
      (pass.trans (congrArg (·.engine.passNumber) fixed)).trans number⟩
  · by_cases hend : 0 = s.store.tEnd
    · rw [(ends hend).reg, wReg]
      exact (begun.passEnded _).1
    · rw [(goesOn hend).reg, wReg]
      exact begun
  · rw [kept.axes, (worked.fixed a).2]
    exact congrArg (fun x => x[a].openCapture) axes
  · have goes := goesOn (Ne.symm hend)
    have recording := Registration.passBegun_recording pass (nextPassNumber s.engine.passNumber) s.reg
    rw [← reg, ← wReg, ← goes.reg] at recording
    refine ⟨?_, ?_, recording.1, recording.2, fun i e he => ?_⟩
    · exact goes.nodeState.trans ((congrArg (·.engine.nodeState) fixed).trans node)
    · rw [goes.clock]
      exact (congrArg (·.clock.tickIndex) fixed).trans index
    · have wTable : w.roster.table = y.roster.table := congrArg (·.roster.table) fixed
      have wTick : w.engine.tick = 0 := (congrArg (·.engine.tick) fixed).trans (congrArg Engine.tick ticked)
      have watched := watchOthers_getElem? s.roster.ownPosition 0 s.roster.table i
      rw [← table, ← wTable, he, Option.map_some, Nat.zero_add] at watched
      refine (goes.missing i _ watched).1 fun ⟨_, frame, _, due⟩ => ?_
      rw [wTick] at due
      exact not_reportInstant_zero _ _ _ due
  · have ended := ends hend.symm
    obtain ⟨-, recording, newest⟩ := begun.passEnded w.engine.halt.late
    rw [← wReg, ← ended.reg] at recording newest
    refine ⟨ended.nodeState, ?_, recording, newest, fun i e he => ended.unwatched e (List.mem_of_getElem? he)⟩
    rw [ended.path]
    exact congrArg (fun t => ({ onPath := true, tPark := t, scale := pass.scale } : PathPosition))
      (congrArg (·.engine.moveTime) fixed)

/-- What a counted mark has done when the engine takes it: the roll count, the channels' OPEN, the midpoints, and
the clock as the mark leaves it. -/
def State.markTaken (origin : FrameOrigin) (rollHigh : Bool) (adopt : FrameClock → FrameClock) (s : State) : State :=
  ((s.onClock fun c => { c with roll := nextRoll origin rollHigh c.roll, tickIndex := none }).exposureOpen
    origin).onClock adopt

/-- The mark that takes the roll count to F, with a clock that begins passes, begins the pass. -/
theorem PassBegan.countMark {s : State} {origin : FrameOrigin} {rollHigh : Bool} {adopt : FrameClock → FrameClock}
    (hd : (s.markTaken origin rollHigh adopt).defaults) {pass : PassParams}
    (hn : (s.markTaken origin rollHigh adopt).engine.nodeState = .pending)
    (hp : (s.markTaken origin rollHigh adopt).engine.params = some pass)
    (hr : (s.markTaken origin rollHigh adopt).clock.roll = pass.startFrame)
    (hf : (s.markTaken origin rollHigh adopt).clock.state.follows = true) {period : Nat}
    (hc : (s.markTaken origin rollHigh adopt).clock.period = some period) :
    PassBegan pass period (s.markTaken origin rollHigh adopt)
      (s.countMark origin rollHigh (State.onClock adopt)) := by
  have run : s.countMark origin rollHigh (State.onClock adopt) =
      if (s.markTaken origin rollHigh adopt).engineMark.clock.state.ticking
      then (s.markTaken origin rollHigh adopt).engineMark.issueTick 0
      else (s.markTaken origin rollHigh adopt).engineMark := rfl
  rw [run, State.engineMark_eq hn hp hr hf]
  generalize s.markTaken origin rollHigh adopt = v at *
  have ticking : (v.passStarted pass).clock.state.ticking = true := by
    show v.clock.state.ticking = true
    revert hf
    cases v.clock.state <;> decide
  have duration : (v.passStarted pass).clock.tickDuration = period / 16 := by
    show v.clock.period.getD 0 / 16 = _
    rw [hc]
    rfl
  have issued : (v.passStarted pass).issueTick 0 = v.firstTick pass period := by
    unfold State.issueTick
    rw [duration]
    rfl
  rw [if_pos ticking, issued]
  exact .firstTick hd hp period

/-- The channels, registration and the rest as the mark leaves them. -/
theorem State.markTaken_spec (origin : FrameOrigin) (rollHigh : Bool) (adopt : FrameClock → FrameClock)
    {s : State} (hd : s.defaults) :
    Exposed { s with
      clock := (s.markTaken origin rollHigh adopt).clock
      axes := Vector.ofFn fun a => s.axes[a].openFrame s.now (nextRoll origin rollHigh s.clock.roll) }
      (s.markTaken origin rollHigh adopt) ∧
    (s.markTaken origin rollHigh adopt).clock = adopt { s.clock with
      roll := nextRoll origin rollHigh s.clock.roll, tickIndex := none, closePending := origin == .real } ∧
    (s.reg.recording = false → (s.markTaken origin rollHigh adopt).reg = s.reg) := by
  generalize hx : ({ s with
    clock := { s.clock with
      roll := nextRoll origin rollHigh s.clock.roll, tickIndex := none, closePending := origin == .real }
    axes := Vector.ofFn fun a => s.axes[a].openFrame s.now (nextRoll origin rollHigh s.clock.roll) } : State) = x
  obtain ⟨ms, taken⟩ : ∃ ms, s.markTaken origin rollHigh adopt = (x.takeMidpoints ms).onClock adopt := by
    rw [← hx]
    exact ⟨_, rfl⟩
  have exposed := Exposed.takeMidpoints (s := x) (by rw [← hx]; exact hd) ms
  have standby := State.takeMidpoints_standby (s := x) (ms := ms)
  rw [taken]
  generalize x.takeMidpoints ms = y at exposed standby
  have clock : y.clock = x.clock := congrArg (·.clock) exposed.fixed
  have adopted := exposed.onClock adopt
  have after : (y.onClock adopt).clock = adopt x.clock := congrArg adopt clock
  rw [after]
  refine ⟨?_, by rw [← hx], fun hr => ?_⟩
  · rw [← hx] at adopted ⊢
    exact adopted
  · have same : y = x := standby (by rw [← hx]; exact hr)
    rw [same, ← hx]
    rfl

/-! ## The marks of a LOCKED and a LOCAL clock (R38, R44) -/

/-- A tracked mark is counted, once the ending frame's ticks are issued. -/
theorem State.markLocked_tracked {s : State} {base p m : Nat} (hp : s.clock.period = some p)
    (ht : s.clock.timingBase = some base) (hm : s.clock.measuringBase = some base) (late : p / 2 ≤ m - base)
    (low : 100000 ≤ m - base) (high : m - base ≤ 50000000) (slow : m - base ≤ p + p / 8)
    (fast : p ≤ m - base + p / 8) (roll : Bool) : s.markLocked m roll =
      (s.catchUp 16).countMark .real roll (State.adoptTracked m (m - base)) := by
  have range : lockable (m - base) = true := by
    simp [lockable, Config.minPeriod, Config.maxPeriod, low, high]
  have near : absDiff (m - base) p ≤ p / 8 := by
    unfold absDiff
    omega
  unfold State.markLocked
  rw [hp, ht, hm]
  dsimp only [Option.getD_some]
  rw [if_neg (Nat.not_lt.2 late), if_pos ⟨range, near⟩]

theorem exec_realMark_locked {s : State} (hs : s.clock.state = .locked) (t : Nat) (roll : Bool) :
    exec (.realMark t roll) s = .next (((s.reach t).onClock fun c => { c with
      lastMark := max s.now t }).markLocked (max s.now t) roll) := by
  have locked : ((s.reach t).onClock fun c => { c with lastMark := (s.reach t).now }).clock.state = .locked := hs
  refine congrArg Host.Outcome.next ?_
  unfold State.realMark
  dsimp only
  rw [locked]
  rfl

/-- Outside a pass a tracked mark is counted with nothing but pulses counted down before it. -/
theorem exec_trackedMark {s : State} {base p : Nat} (hn : s.engine.nodeState.inPass = false)
    (hs : s.clock.state = .locked) (hp : s.clock.period = some p) (ht : s.clock.timingBase = some base)
    (hm : s.clock.measuringBase = some base) {t : Nat} (late : p / 2 ≤ max s.now t - base)
    (low : 100000 ≤ max s.now t - base) (high : max s.now t - base ≤ 50000000)
    (slow : max s.now t - base ≤ p + p / 8) (fast : p ≤ max s.now t - base + p / 8) (roll : Bool) :
    ∃ index cues, exec (.realMark t roll) s = .next (State.countMark .real roll
      (State.adoptTracked (max s.now t) (max s.now t - base)) { s with
        now := max s.now t, clock := { s.clock with lastMark := max s.now t, tickIndex := index }
        cues := cues }) := by
  obtain ⟨index, cues, caught⟩ := State.catchUp_pending
    (s := (s.reach t).onClock fun c => { c with lastMark := max s.now t }) hn 16
  rw [exec_realMark_locked hs, State.markLocked_tracked
    (s := (s.reach t).onClock fun c => { c with lastMark := max s.now t }) hp ht hm late low high slow fast,
    caught]
  exact ⟨index, cues, rfl⟩

theorem exec_countedLocalMark {s : State} {base p : Nat} (hn : s.engine.nodeState.inPass = false)
    (hs : s.clock.state = .localMarks) (ht : s.clock.timingBase = some base) (hp : s.clock.period = some p) :
    ∃ index cues, exec .localMark s = .next (State.countMark .localMark false
      (State.onClock fun c => { c with timingBase := some (base + p), origin := .localMark }) { s with
        now := max s.now (base + p), clock := { s.clock with tickIndex := index }, cues := cues }) := by
  have due : s.clock.ownMarkAt .localMarks = some (base + p) := by
    simp [FrameClock.ownMarkAt, ht, hp, hs]
  have run : exec .localMark s =
      .next (s.atInstant (s.clock.ownMarkAt .localMarks) (State.ownMark .localMarks .localMark)) := rfl
  obtain ⟨index, cues, caught⟩ := State.catchUp_pending (s := s.reach (base + p)) hn 16
  refine ⟨index, cues, ?_⟩
  rw [run, due]
  refine congrArg Host.Outcome.next ?_
  show State.ownMark .localMarks .localMark (base + p) (s.reach (base + p)) = _
  unfold State.ownMark
  rw [caught]
  exact if_pos hs

end Sys2Proof.Machine

open Sys2Proof Sys2Proof.Machine

/-- Settles O35: both marks are counted ones (`State.markLocked_tracked`), and a counted mark that takes the roll
count to F begins the pass (`PassBegan.countMark`). -/
theorem markFBeginsThePass : Obligations.MarkFBeginsThePass := by
  unfold Obligations.MarkFBeginsThePass
  intro s base p pass ht hp hn hpass hd number begun
  have claim (now : Nat) (clock : FrameClock) (cues : Vector CueLine 8) (origin : FrameOrigin) (rollHigh : Bool)
      (adopt : FrameClock → FrameClock) (period : Nat)
      (hr : nextRoll origin rollHigh clock.roll = pass.startFrame) (hf : clock.state.follows = true)
      (ha : ∀ c, (adopt c).state = c.state ∧ (adopt c).roll = c.roll)
      (hc : ∀ c, c.period = clock.period → (adopt c).period = some period) :
      begun period (({ s with now := now, clock := clock, cues := cues } : State).countMark origin rollHigh
        (State.onClock adopt)) := by
    obtain ⟨exposed, taken, standby⟩ := State.markTaken_spec origin rollHigh adopt
      (s := { s with now := now, clock := clock, cues := cues }) hd
    have began := PassBegan.countMark (pass := pass) (period := period)
      (s := { s with now := now, clock := clock, cues := cues }) (origin := origin) (rollHigh := rollHigh)
      (adopt := adopt)
    generalize State.countMark origin rollHigh (State.onClock adopt) _ = u at began ⊢
    generalize State.markTaken origin rollHigh adopt _ = v at exposed taken standby began
    have engine : v.engine = s.engine := congrArg (·.engine) exposed.fixed
    have roll : v.clock.roll = pass.startFrame := by rw [taken, (ha _).2]; exact hr
    have store : v.store = s.store := congrArg (·.store) exposed.fixed
    have roster : v.roster = s.roster := congrArg (·.roster) exposed.fixed
    have axes (a : Fin 4) : v.axes[a].openCapture =
        (s.axes[a].openFrame now (nextRoll origin rollHigh clock.roll)).openCapture := by
      rw [exposed.fixed]
      simp
    have began := began (exposed.dispositions.trans hd) (engine ▸ hn) (engine ▸ hpass) roll
      (by rw [taken, (ha _).1]; exact hf) (by rw [taken]; exact hc _ rfl)
    obtain ⟨tick, moveTime, ticked, prev, duration, passNumber⟩ := began.tick
    have registered := began.registered
    have running := began.running
    have ended := began.ended
    rw [engine] at passNumber registered
    rw [store] at running ended
    rw [roster] at running
    obtain ⟨none, list, overflow, comparisons, gross⟩ := registered.lists
    have comparable := registered.comparable
    have history := registered.history
    rw [exposed.reference] at comparable
    rw [exposed.history] at history
    refine ⟨tick, moveTime, ticked, prev, duration, passNumber, began.roll.trans roll, registered.openFrame, none,
      list, overflow, comparisons, gross, comparable, registered.axes,
      registered.reference.trans exposed.reference, fun h => ?_, registered.holds, registered.sources, history,
      registered.newest, fun a => ?_, running, ended⟩
    · rw [registered.frames, standby h]
    · have instant : v.now = now := congrArg (·.now) exposed.fixed
      dsimp only
      rw [began.captures a, axes a, AxisChannel.openFrame_capture, began.now, began.roll, roll, instant, hr]
  have out : s.engine.nodeState.inPass = false := by rw [hn]; rfl
  refine ⟨fun t roll hs hm => ?_, fun hs hr => ?_⟩
  · intro m late low high slow fast hroll
    obtain ⟨index, cues, run⟩ := exec_trackedMark out hs hp ht hm late low high slow fast roll
    refine ⟨_, run, claim _ _ cues .real roll _ m ?_ ?_ (fun _ => ⟨rfl, rfl⟩) fun _ _ => rfl⟩
    · rw [← hroll]
      cases roll <;> rfl
    · show s.clock.state.follows = true
      rw [hs]
      rfl
  · obtain ⟨index, cues, run⟩ := exec_countedLocalMark out hs ht hp
    refine ⟨_, run, claim _ _ cues .localMark false _ p ?_ ?_ (fun _ => ⟨rfl, rfl⟩) fun c hc => hc.trans hp⟩
    · exact hr
    · show s.clock.state.follows = true
      rw [hs]
      rfl

end

section
/-! PROOFS. A received DECLINE (R105, R106; O46) and a generic HALT (R122; O48). -/

namespace Sys2Proof.Machine

/-! ## The node that comes back to ARMED (R105, R179) -/

/-- A cue line at rest (R175, R179). -/
abbrev CueLine.Rests (l : CueLine) : Prop := l.active = false ∧ l.pulseEnd = none

section
variable {s : State}

theorem State.clockExit_rests (h : ∀ i : Fin 8, s.cues[i].Rests) (i : Fin 8) : s.clockExit.cues[i].Rests := by
  obtain ⟨leaves, stays⟩ := s.clockExit_cues
  by_cases hl : s.clockLeaves s.engine.nodeState
  · have at_i : s.clockExit.cues[i] = s.cues[i].endPulse := by simp [leaves hl]
    have none : s.cues[i].pulseEnd = none := (h i).2
    rw [at_i, CueLine.endPulse, none]
    exact h i
  · rw [stays hl]
    exact h i

/-- The lines that a change to ARMED takes to rest, and lines at rest at any change, are at rest after it. -/
theorem State.enterNode_rests (ns : NodeState) (h : ns = .armed ∨ ∀ i : Fin 8, s.cues[i].Rests) (i : Fin 8) :
    (s.enterNode ns).cues[i].Rests := by
  rw [State.enterNode_cues]
  unfold State.nodeBecomes
  dsimp only
  split
  · exact State.clockExit_rests (fun j => by simp [CueLine.toRest, CueLine.Rests]) i
  next other => exact State.clockExit_rests (s := s.onEngine _) (h.resolve_left other) i

theorem State.backToArmed_rests (i : Fin 8) : s.backToArmed.cues[i].Rests := by
  have armed := State.enterNode_rests (s := s) .armed (.inl rfl)
  unfold State.backToArmed
  dsimp only
  split
  · exact armed i
  · unfold State.judgeArm
    rw [State.enterNode_nodeState]
    dsimp only
    split
    · exact armed i
    · exact State.enterNode_rests .idle (.inr armed) i

theorem State.backToArmed_clock (h : s.clockLeaves .armed) : s.backToArmed.clock.state = .free := by
  have free : (s.enterNode .armed).clock.state = .free := by
    rw [State.enterNode_clock, (s.nodeBecomes_clock .armed).1 h]
  have moved : (s.enterNode .armed).clock.state ≠ s.clock.state := by
    rw [free]
    rcases h with ⟨h, -⟩ | ⟨h, -⟩ <;> simp [h]
  unfold State.backToArmed State.judgeArm
  dsimp only
  rw [if_neg moved, State.enterNode_nodeState]
  dsimp only
  have stays : ¬ (s.enterNode .armed).clockLeaves .idle := by simp [State.clockLeaves, free]
  rw [State.armHolds_of_free free, if_neg Bool.false_ne_true, State.enterNode_clock,
    (State.nodeBecomes_clock .idle _).2 stays, free]

/-- What the claims say of the clock that leaves COASTING or LOCAL with PENDING. -/
theorem State.clockLeaves_armed : s.clockLeaves .armed ↔
    s.clock.state = .coasting ∨ s.clock.state = .localMarks ∧ s.localHolds = false := by
  simp [State.clockLeaves, NodeState.inPass, NodeState.holdsLocal]

theorem State.backToArmed_eq_ite {leaving : Prop} [Decidable leaving] (h : s.clockLeaves .armed ↔ leaving) :
    s.backToArmed.engine.nodeState = if leaving then NodeState.idle else .armed := by
  obtain ⟨leaves, stays⟩ := s.backToArmed_nodeState
  split
  · exact leaves (h.2 ‹_›)
  · exact stays (mt h.1 ‹_›)

end

/-! ## The latch of a peer cause (R187) -/

/-- A peer cause writes its origin where none is held, and no other latch does. -/
theorem Supervision.latch_origin {c : Cause} {k : Fin 5} (hk : c.originSlot = some k) {u : Supervision}
    (h : u.origins[k] = none) (a : Option (Fin 4)) (station : Nat) :
    (u.latch c a (some station)).origins[k] = some station := by
  have kept (v : Supervision) : (v.addAxis c a).origins = v.origins := by
    unfold Supervision.addAxis
    split <;> rfl
  unfold Supervision.latch Supervision.addOrigin
  rw [hk]
  dsimp only
  rw [kept, h]
  exact Vector.getElem_set_self ..

/-! ## DECLINE (R105, R106) -/

theorem exec_decline {s : State} {p : List Byte} (hs : s.line.state = .receiving) (hp : p.length = 4) (t : Nat)
    (station : BitVec 5) : exec (.decline t station p) s =
      .next ((s.received t).takeDecline station.toNat (frame20At p 0)) := by
  refine congrArg Host.Outcome.next ((State.arrive_of_receiving hs t _).trans ?_)
  rw [State.ifLength_of_eq hp]

theorem State.takeDecline_ignored {f : Nat} {s : State}
    (h : s.names f = false ∨ s.engine.nodeState ≠ .pending ∧ s.engine.nodeState ≠ .running) (station : Nat) :
    s.takeDecline station f = s := by
  unfold State.takeDecline
  split
  · split <;> simp_all
  · rfl

theorem State.takeDecline_named {f : Nat} {s : State} (hn : s.names f = true) (station : Nat) :
    (s.engine.nodeState = .pending → s.takeDecline station f = s.backToArmed) ∧
    (s.engine.nodeState = .running → s.takeDecline station f = s.raise .peerDeclined none (some station)) := by
  refine ⟨fun h => ?_, fun h => ?_⟩ <;> simp [State.takeDecline, hn, h]

/-- The fields of the node's own HALT (12.1). -/
theorem State.ownHaltEntry_fields (code : Byte) (s : State) :
    (s.ownHaltEntry code).payload.length = 8 ∧
    fieldAt (s.ownHaltEntry code).payload 0 3 = s.passStart % 2 ^ 24 ∧
    fieldAt (s.ownHaltEntry code).payload 3 4 = s.engine.ownRampStart % 2 ^ 32 ∧
    byteAt (s.ownHaltEntry code).payload 7 = code.toNat := by
  have payload : (s.ownHaltEntry code).payload =
      bytesOf s.passStart 3 ++ (bytesOf s.engine.ownRampStart 4 ++ [code]) := by
    simp [State.ownHaltEntry, TxEntry.new]
  have ramp := fieldAt_append (bytesOf s.passStart 3) (bytesOf s.engine.ownRampStart 4 ++ [code]) 0 4
  have last := fieldAt_append (bytesOf s.passStart 3 ++ bytesOf s.engine.ownRampStart 4) [code] 0 1
  rw [length_bytesOf] at ramp
  rw [List.length_append, length_bytesOf, length_bytesOf, List.append_assoc, fieldAt_one, fieldAt_one] at last
  rw [payload]
  refine ⟨by simp, fieldAt_bytesOf .., ?_, last⟩
  rw [ramp]
  exact fieldAt_bytesOf ..

/-- The own HALT offered where there is room waits as the one of this pass (R119). -/
theorem State.ownHaltEvent_offered {s : State} (hr : s.engine.halt.rampStart = none)
    (hroom : s.hasRoom) (code : Byte) :
    (s.ownHaltEvent code).engine.halt.ownHalt = some s.engine.ownRampStart ∧
    s.ownHaltEntry code ∈ (s.ownHaltEvent code).line.txQueue := by
  rw [State.ownHaltEvent_eq hr, State.offer_places (s := s.haltRecorded code) hroom.1
    (.inl (by simp [State.ownHaltEntry, TxEntry.new])) hroom.2]
  exact ⟨rfl, (placeEntry_perm _ _).mem_iff.2 List.mem_cons_self⟩

/-! ## A generic HALT (R122) -/

theorem exec_genericHalt {s : State} {p : List Byte} (hs : s.line.state = .receiving) (hp : p.length = 8)
    (hf : fieldAt p 0 3 = 16777215) (t : Nat) (station : BitVec 5) :
    exec (.genericHalt t station p) s = .next ((s.received t).takeGenericHalt station.toNat) := by
  refine congrArg Host.Outcome.next ((State.arrive_of_receiving hs t _).trans ?_)
  rw [State.ifLength_of_eq hp, State.takeHaltTelegram, Config.genericF, if_pos hf]

/-- R117: the node goes IDLE off the path, and DISARMED is latched. -/
theorem Tells.disarm (s : State) : Tells 1 (s.offPath.note .disarmed) s.disarm := .enterNode ..

/-- A generic HALT is latched, with its sender, in the states that take it. -/
theorem State.takeGenericHalt_cases (station : Nat) (s : State) : s.takeGenericHalt station =
    match s.engine.nodeState with
    | .running => (s.remoteHalted station).ownHaltEvent 8
    | .halting => s.remoteHalted station
    | .pending => (s.remoteHalted station).backToArmed
    | .armed => (s.remoteHalted station).disarm
    | .slewing | .returning => (s.remoteHalted station).decelerate
    | .settling | .excluded | .idle | .loading | .halted | .ended | .stopped => s := by
  unfold State.takeGenericHalt
  cases s.engine.nodeState <;> rfl

/-- What each answer to a generic HALT keeps of the latch and leaves alone. -/
theorem State.takeGenericHalt_latched {s : State} (h : s.engine.nodeState ∈
    [NodeState.running, .halting, .pending, .armed, .slewing, .returning]) (station : Nat) :
    (s.takeGenericHalt station).sup.latched = (s.remoteHalted station).sup.latched ∧
    (s.takeGenericHalt station).sup.origins = (s.remoteHalted station).sup.origins ∧
    (s.takeGenericHalt station).axes = s.axes ∧ (s.takeGenericHalt station).store = s.store := by
  rw [State.takeGenericHalt_cases]
  have told {n : Nat} {t u : State} (k : Tells n t u) : u.sup.latched = t.sup.latched ∧
      u.sup.origins = t.sup.origins ∧ u.axes = t.axes ∧ u.store = t.store := by
    rw [k.fixed]
    exact ⟨rfl, rfl, rfl, rfl⟩
  have axes : (s.remoteHalted station).axes = s.axes := rfl
  have store : (s.remoteHalted station).store = s.store := rfl
  rw [← axes, ← store]
  cases hn : s.engine.nodeState <;> simp only [hn] at h ⊢
  case running =>
    have raised := Raised.ownHaltEvent (s := s.remoteHalted station) hn 8
    obtain ⟨k, sup⟩ := (s.remoteHalted station).ownHaltEvent_sup 8
    rw [sup]
    exact ⟨rfl, rfl, raised.axes, congrArg (·.store) raised.fixed⟩
  case pending => exact told (.backToArmed _)
  case armed => exact (told (Tells.disarm (s.remoteHalted station)) :)
  case slewing | returning => exact ⟨rfl, rfl, rfl, rfl⟩
  all_goals simp at h ⊢

end Sys2Proof.Machine

open Sys2Proof Sys2Proof.Machine

/-- Settles O46: a PENDING node by `State.backToArmed`, a RUNNING one by PEER_DECLINED's own HALT. -/
theorem declineActs : Obligations.DeclineActs := by
  unfold Obligations.DeclineActs
  intro t station p pass s hs hp hpass
  rw [exec_decline hs hp]
  have names : (s.received t).names (frame20At p 0) = true ↔ pass.startFrame = fieldAt p 0 3 % 2 ^ 20 := by
    simp [State.names, State.received, State.passStart, hpass, frame20At]
  have start : s.passStart = pass.startFrame := by simp [State.passStart, hpass]
  refine ⟨fun h => ?_, fun hn hst => ?_, fun hn hst hd hr => ?_⟩
  · rw [State.takeDecline_ignored (s := s.received t)]
    exact h.imp (fun hn => Bool.eq_false_iff.2 (mt names.1 hn)) id
  · have taken := (State.takeDecline_named (names.2 hn) station.toNat).1 hst
    have leaves : (s.received t).clockLeaves .armed ↔ _ := State.clockLeaves_armed
    have told := Tells.backToArmed (s.received t)
    refine ⟨_, congrArg _ taken, ?_, ?_, fun h => ?_, ?_, ?_, ?_, ?_⟩
    · exact State.backToArmed_eq_ite leaves
    · exact (congrArg (·.engine.params) told.fixed).trans hpass
    · exact State.backToArmed_clock (leaves.2 h)
    · exact congrArg (·.engine.path) told.fixed
    · exact congrArg (·.sup.latched) told.fixed
    · exact congrArg (·.axes) told.fixed
    · exact State.backToArmed_rests
  · have taken : (s.received t).takeDecline station.toNat (frame20At p 0) =
        ((s.received t).latch .peerDeclined none (some station.toNat)).ownHaltEvent 6 :=
      ((State.takeDecline_named (names.2 hn) station.toNat).2 hst).trans
        (State.raise_unhalted (s := s.received t) none _ hd rfl hst)
    refine ⟨_, congrArg _ taken, ?_, fun ho => ?_, ?_, ?_, ?_, ?_, fun hroom => ?_⟩
    all_goals
      have latched := State.latchedCause_latch .peerDeclined none (some station.toNat) (s.received t)
      have engine : ((s.received t).latch .peerDeclined none (some station.toNat)).engine = s.engine := rfl
    · exact (Calm.closed.ownHaltEvent ..).latchedCause latched
    · obtain ⟨k, sup⟩ := State.ownHaltEvent_sup 6 ((s.received t).latch .peerDeclined none (some station.toNat))
      rw [sup]
      exact Supervision.latch_origin (k := 3) rfl ho ..
    · exact (State.ownHaltEvent_nodeState ..).trans hst
    · exact (State.ownHaltEvent_unhalted (engine ▸ hr) 6).1
    · exact (State.ownHaltEvent_unhalted (engine ▸ hr) 6).2
    · exact (Raised.ownHaltEvent (engine ▸ hst) 6).axes
    · obtain ⟨own, offered⟩ := State.ownHaltEvent_offered (engine ▸ hr) hroom
        (s := (s.received t).latch .peerDeclined none (some station.toNat)) 6
      obtain ⟨length, first, ramp, last⟩ := State.ownHaltEntry_fields 6
        ((s.received t).latch .peerDeclined none (some station.toNat))
      exact ⟨own, _, offered, rfl, rfl, rfl, length, first.trans (congrArg (· % 2 ^ 24) start), ramp, last⟩

/-- Settles O48: by the node state, `State.takeGenericHalt_cases`. -/
theorem genericHaltActs : Obligations.GenericHaltActs := by
  unfold Obligations.GenericHaltActs
  intro t station p s hs hp hf
  rw [exec_genericHalt hs hp hf]
  refine ⟨fun h => ?_, fun h => ?_⟩
  · rw [State.takeGenericHalt_cases]
    have node : (s.received t).engine.nodeState = s.engine.nodeState := rfl
    rw [node]
    cases hn : s.engine.nodeState <;> simp [hn] at h ⊢
  · obtain ⟨latched, origins, axes, store⟩ := State.takeGenericHalt_latched (s := s.received t) h station.toNat
    have cases := (s.received t).takeGenericHalt_cases station.toNat
    have node : (s.received t).engine.nodeState = s.engine.nodeState := rfl
    have engine : ((s.received t).remoteHalted station.toNat).engine = s.engine := rfl
    rw [node] at cases
    refine ⟨_, rfl, ?_, fun ho => ?_, axes, store, fun hn hr => ?_, fun hn hr => ?_, fun hn => ?_, fun hn => ?_,
      fun hn => ?_, fun hn => ?_⟩
    · rw [State.latchedCause, latched]
      exact State.remoteHalted_latched ..
    · rw [origins]
      exact Supervision.latch_origin (k := 4) rfl ho ..
    · rw [hn] at cases
      rw [cases]
      exact ⟨(State.ownHaltEvent_nodeState ..).trans hn, State.ownHaltEvent_unhalted (engine ▸ hr) 8⟩
    · rw [hn] at cases
      rw [cases]
      obtain ⟨ramp, hr⟩ := Option.ne_none_iff_exists'.1 hr
      have held : ((s.received t).remoteHalted station.toNat).ownHaltEvent 8 =
          (s.received t).remoteHalted station.toNat := by simp only [State.ownHaltEvent, engine, hr]
      rw [held]
      exact ⟨rfl, rfl⟩
    · rw [hn] at cases
      rw [cases, engine]
    · rw [hn] at cases
      rw [cases]
      have leaves : ((s.received t).remoteHalted station.toNat).clockLeaves .armed ↔ _ := State.clockLeaves_armed
      exact ⟨State.backToArmed_eq_ite leaves,
        congrArg (·.engine.path) (Tells.backToArmed ..).fixed⟩
    · rw [hn] at cases
      rw [cases]
      have told := Tells.disarm ((s.received t).remoteHalted station.toNat)
      refine ⟨State.enterNode_nodeState .., congrArg (·.engine.path.onPath) told.fixed, ?_⟩
      rw [told.fixed]
      exact Vector.getElem_set_self ..
    · have taken : (s.received t).takeGenericHalt station.toNat =
          ((s.received t).remoteHalted station.toNat).decelerate := by
        rcases hn with hn | hn <;> rw [cases, hn]
      rw [taken]
      refine ⟨rfl, fun kind tPark scale moved decel hm => ?_, fun q count decel hm => ?_⟩
      · simp [State.decelerate, engine, hm, Slew.decelerate]
      · simp [State.decelerate, engine, hm, Slew.decelerate]

end

section
/-! PROOFS. What causes raised, arm judgements and pass ticks leave of the state under any dispositions (R46, R89,
R108, R117, R128, R187). The four relations below are of growing strength: what lasts at every mark, what lasts
while the pass does, what the clock keeps, and what the tick count and the halt record keep. -/

namespace Sys2Proof.Machine

/-! ## The relations -/

/-- A channel but for its outputs: what captures and following checks read (R145, R147). -/
def AxisChannel.sensed (x : AxisChannel) : AxisChannel :=
  { x with plan := none, increasing := true, dirHigh := true, lastDirChange := none, deficitTicks := 0 }

/-- The clock of a node that leaves COASTING or LOCAL (R35). -/
def FrameClock.freed (c : FrameClock) : FrameClock :=
  { c with
    state := .free, period := none, previousPeriod := none, timingBase := none, tickIndex := none
    missedRun := 0, consistentRun := 0, closePending := false }

/-- What registration writes in supervision: TRUNCATED, and GROSS_DEVIATION with its axis set. -/
structure RegMarks where
  truncated : Bool
  grossFlag : Bool
  grossSet : BitVec 4

def State.regMarks (s : State) : RegMarks where
  truncated := s.sup.notes[4]
  grossFlag := s.latchedCause .grossDeviation
  grossSet := s.sup.axisSets[5]

/-- What a mark's work leaves, whatever it raises. -/
structure Lasting (s t : State) : Prop where
  now : t.now = s.now
  sensed : ∀ a : Fin 4, t.axes[a].sensed = s.axes[a].sensed
  pool : t.store.pool = s.store.pool
  latched : ∀ c, s.latchedCause c = true → t.latchedCause c = true
  noted : ∀ k : Fin 6, s.sup.notes[k] = true → t.sup.notes[k] = true
  dispositions : t.sup.dispositions = s.sup.dispositions
  alone : t.roster.aloneParticipant = s.roster.aloneParticipant
  store : t.store = s.store ∨ s.store.phase ≠ .valid ∧ t.store.phase ≠ .valid

/-- What lasts while a pass does: nothing begins one, and registration stands but for what is `recorded`. -/
structure PassLasting (recorded : Prop) (s t : State) : Prop extends Lasting s t where
  inPass : t.engine.nodeState.inPass = true → s.engine.nodeState.inPass = true ∧ t.store = s.store
  pending : t.engine.nodeState = .pending → s.engine.nodeState = .pending
  registered : ¬ recorded → s.engine.nodeState.inPass = false ∨ t.engine.nodeState.inPass = true →
    t.reg = s.reg ∧ t.regMarks = s.regMarks

/-- The clock stands, or leaves COASTING or LOCAL with the node's change of state. -/
structure ClockLasting (recorded : Prop) (s t : State) : Prop extends PassLasting recorded s t where
  clock : t.clock = s.clock ∨ t.clock = s.clock.freed ∧
    (s.clock.state = .coasting ∨ s.clock.state = .localMarks ∧ s.localHolds = false)
  stands : t.engine.nodeState.inPass = true → t.clock = s.clock
  coasting : s.clock.state = .coasting → s.engine.nodeState.inPass = true →
    (t.clock.state = .coasting ↔ t.engine.nodeState.inPass = true)
  missed : t.sup.counter .missedMarks = s.sup.counter .missedMarks

/-- Within one tick no further tick is counted, and a ramp start that is set lies two ticks ahead at least. -/
structure TickLasting (recorded : Prop) (s t : State) : Prop extends ClockLasting recorded s t where
  tick : t.engine.tick = s.engine.tick ∧ t.engine.ticked = s.engine.ticked ∧ t.engine.params = s.engine.params
  ramp : t.engine.nodeState.inPass = true → t.engine.halt.rampStart = s.engine.halt.rampStart ∨
    s.engine.halt.rampStart = none ∧ ∃ r, t.engine.halt.rampStart = some r ∧ s.engine.tick + 2 ≤ r

section
variable {recorded : Prop} {s t u : State}

theorem Lasting.refl (s : State) : Lasting s s :=
  ⟨rfl, fun _ => rfl, rfl, fun _ => id, fun _ => id, rfl, rfl, .inl rfl⟩

theorem Lasting.trans (h : Lasting s t) (k : Lasting t u) : Lasting s u where
  now := k.now.trans h.now
  sensed a := (k.sensed a).trans (h.sensed a)
  pool := k.pool.trans h.pool
  latched c := k.latched c ∘ h.latched c
  noted n := k.noted n ∘ h.noted n
  dispositions := k.dispositions.trans h.dispositions
  alone := k.alone.trans h.alone
  store := by
    rcases h.store with h | ⟨hs, ht⟩
    · rw [← h]
      exact k.store
    · rcases k.store with k | ⟨-, hu⟩
      · exact .inr ⟨hs, k ▸ ht⟩
      · exact .inr ⟨hs, hu⟩

theorem Lasting.store_of_valid (h : Lasting s t) (hs : s.store.phase = .valid) : t.store = s.store :=
  h.store.resolve_right fun ⟨hn, _⟩ => hn hs

theorem Lasting.localHolds (h : Lasting s t) (hc : t.clock.lastMark = s.clock.lastMark) :
    t.localHolds = s.localHolds := by
  have phase : (t.store.phase == .valid) = (s.store.phase == .valid) := by
    rcases h.store with h | ⟨hs, ht⟩
    · rw [h]
    · simp [hs, ht]
  rw [State.localHolds, State.localHolds, h.alone, phase, h.now, hc]

theorem PassLasting.refl (s : State) : PassLasting recorded s s where
  toLasting := .refl s
  inPass h := ⟨h, rfl⟩
  pending := id
  registered _ _ := ⟨rfl, rfl⟩

/-- Nothing that lasts so takes the node into a pass. -/
theorem PassLasting.out (h : PassLasting recorded s t) (hs : s.engine.nodeState.inPass = false) :
    t.engine.nodeState.inPass = false :=
  Bool.eq_false_iff.2 fun ht => by simp [(h.inPass ht).1] at hs

theorem PassLasting.trans (h : PassLasting recorded s t) (k : PassLasting recorded t u) :
    PassLasting recorded s u where
  toLasting := h.toLasting.trans k.toLasting
  inPass hu := ⟨(h.inPass (k.inPass hu).1).1, (k.inPass hu).2.trans (h.inPass (k.inPass hu).1).2⟩
  pending := h.pending ∘ k.pending
  registered hr hp := by
    have first := h.registered hr (hp.imp_right fun hu => (k.inPass hu).1)
    have second := k.registered hr (hp.imp_left h.out)
    exact ⟨second.1.trans first.1, second.2.trans first.2⟩

theorem ClockLasting.refl (s : State) : ClockLasting recorded s s where
  toPassLasting := .refl s
  clock := .inl rfl
  stands _ := rfl
  coasting hc hp := ⟨fun _ => hp, fun _ => hc⟩
  missed := rfl

theorem ClockLasting.lastMark (h : ClockLasting recorded s t) : t.clock.lastMark = s.clock.lastMark := by
  rcases h.clock with h | ⟨h, -⟩ <;> simp only [h, FrameClock.freed]

theorem ClockLasting.trans (h : ClockLasting recorded s t) (k : ClockLasting recorded t u) :
    ClockLasting recorded s u where
  toPassLasting := h.toPassLasting.trans k.toPassLasting
  clock := by
    rcases h.clock with hc | ⟨hc, hl⟩
    · have holds := h.localHolds h.lastMark
      have left := k.clock
      rwa [hc, holds] at left
    · rcases k.clock with kc | ⟨-, kl⟩
      · exact .inr ⟨kc.trans hc, hl⟩
      · simp [hc, FrameClock.freed] at kl
  stands hu := (k.stands hu).trans (h.stands (k.inPass hu).1)
  coasting hc hp := by
    have first := h.coasting hc hp
    by_cases ht : t.engine.nodeState.inPass = true
    · exact k.coasting (first.2 ht) ht
    · have out := k.out (Bool.eq_false_iff.2 ht)
      have kept : u.clock = t.clock := k.clock.resolve_right fun ⟨_, left⟩ => by
        rcases h.clock with same | ⟨freed, -⟩
        · exact ht (first.1 (same ▸ hc))
        · simp [freed, FrameClock.freed] at left
      rw [kept, first, out]
      simp [ht]
  missed := k.missed.trans h.missed

/-- Outside COASTING and LOCAL the clock stands. -/
theorem ClockLasting.clock_of (h : ClockLasting recorded s t) (hc : s.clock.state.closes = true) :
    t.clock = s.clock := by
  refine h.clock.resolve_right fun ⟨_, left⟩ => ?_
  rcases left with left | ⟨left, -⟩ <;> rw [left] at hc <;> exact absurd hc (by decide)

theorem TickLasting.refl (s : State) : TickLasting recorded s s where
  toClockLasting := .refl s
  tick := ⟨rfl, rfl, rfl⟩
  ramp _ := .inl rfl

theorem TickLasting.trans (h : TickLasting recorded s t) (k : TickLasting recorded t u) :
    TickLasting recorded s u where
  toClockLasting := h.toClockLasting.trans k.toClockLasting
  tick := by
    obtain ⟨a, b, c⟩ := h.tick
    obtain ⟨a', b', c'⟩ := k.tick
    exact ⟨a'.trans a, b'.trans b, c'.trans c⟩
  ramp hu := by
    have first := h.ramp (k.inPass hu).1
    have second := k.ramp hu
    rw [h.tick.1] at second
    rcases second with same | ⟨none, r, set, ahead⟩
    · rw [same]
      exact first
    · rcases first with same | ⟨-, r', set', -⟩
      · exact .inr ⟨same ▸ none, r, set, ahead⟩
      · simp [none] at set'

namespace TickLasting

theorem weaken (h : TickLasting False s t) : TickLasting recorded s t :=
  { h with registered := fun _ => h.registered id }

/-- Where the pass ends, registration takes its end, and the ramp start goes. -/
theorem of_left (h : ClockLasting True s t)
    (hn : t.engine.tick = s.engine.tick ∧ t.engine.ticked = s.engine.ticked ∧ t.engine.params = s.engine.params)
    (hs : s.engine.nodeState.inPass = true) (ht : t.engine.nodeState.inPass = false) : TickLasting recorded s t :=
  { h with
    registered := fun _ hp => by simp [hs, ht] at hp
    tick := hn
    ramp := fun hp => by simp [ht] at hp }

theorem ite {p : Prop} [Decidable p] (ht : p → TickLasting recorded s t) (hu : ¬ p → TickLasting recorded s u) :
    TickLasting recorded s (if p then t else u) :=
  RaiseClosed.of_ite ht hu

theorem foldl {α : Type} {f : State → α → State} (hf : ∀ s a, TickLasting recorded s (f s a)) (l : List α)
    (s : State) : TickLasting recorded s (l.foldl f s) := by
  induction l generalizing s with
  | nil => exact .refl s
  | cons a l ih => exact (hf s a).trans (ih _)

/-! ## Updates and telegrams -/

/-- An update of blocks and items that none of the relations speaks of. -/
theorem of_fixed (h : t = { s with
      line := t.line, cues := t.cues, levels := t.levels, free := t.free
      roster := { s.roster with
        resume := t.roster.resume, announceSeq := t.roster.announceSeq, schedule := t.roster.schedule }
      engine := { s.engine with
        moveTime := t.engine.moveTime, prevTime := t.engine.prevTime, tickDuration := t.engine.tickDuration
        path := t.engine.path, slew := t.engine.slew, holdTargets := t.engine.holdTargets
        reportStart := t.engine.reportStart
        halt := { t.engine.halt with rampStart := s.engine.halt.rampStart } }
      sup := { s.sup with
        origins := t.sup.origins, counters := t.sup.counters, exception := t.sup.exception
        exceptionCount := t.sup.exceptionCount } })
    (hm : t.sup.counter .missedMarks = s.sup.counter .missedMarks) : TickLasting recorded s t := by
  generalize t.line = line, t.cues = cues, t.levels = levels, t.free = free, t.roster.resume = resume,
    t.roster.announceSeq = seq, t.roster.schedule = schedule, t.engine.moveTime = moveTime,
    t.engine.prevTime = prev, t.engine.tickDuration = duration, t.engine.path = path, t.engine.slew = slew,
    t.engine.holdTargets = holds, t.engine.reportStart = start, t.engine.halt = halt, t.sup.origins = origins,
    t.sup.counters = counters, t.sup.exception = exception, t.sup.exceptionCount = count at h
  subst h
  exact {
    now := rfl, sensed := fun _ => rfl, pool := rfl, latched := fun _ => id, noted := fun _ => id
    dispositions := rfl, alone := rfl
    store := .inl rfl, inPass := fun h => ⟨h, rfl⟩, pending := id, registered := fun _ _ => ⟨rfl, rfl⟩
    clock := .inl rfl, stands := fun _ => rfl, coasting := fun hc hp => ⟨fun _ => hp, fun _ => hc⟩, missed := hm
    tick := ⟨rfl, rfl, rfl⟩, ramp := fun _ => .inl rfl }

/-- Telegrams of the node's state, its change with the clock's exit. -/
theorem of_tells {n : Nat} (h : Tells n s t)
    (hp : t.engine.nodeState.inPass = true → s.engine.nodeState.inPass = true)
    (hn : t.engine.nodeState = .pending → s.engine.nodeState = .pending)
    (hc : t.clock = s.clock ∨ t.clock = s.clock.freed ∧
      (s.clock.state = .coasting ∨ s.clock.state = .localMarks ∧ s.localHolds = false))
    (hs : t.engine.nodeState.inPass = true → t.clock = s.clock)
    (hl : s.clock.state = .coasting → (t.clock.state = .coasting ↔ t.engine.nodeState.inPass = true)) :
    TickLasting recorded s t := by
  have missed : t.sup.counter .missedMarks = s.sup.counter .missedMarks := h.counters 0 (by decide)
  have fixed := h.fixed
  generalize t.line.txQueue = q, t.clock = clock, t.cues = cues, t.engine.nodeState = ns,
    t.engine.reportStart = start, t.sup.counters = counters at fixed hp hn hc hs hl
  subst fixed
  exact {
    now := rfl, sensed := fun _ => rfl, pool := rfl, latched := fun _ => id, noted := fun _ => id
    dispositions := rfl, alone := rfl
    store := .inl rfl, inPass := fun h => ⟨hp h, rfl⟩, pending := hn, registered := fun _ _ => ⟨rfl, rfl⟩
    clock := hc, stands := hs, coasting := fun hc _ => hl hc, missed := missed
    tick := ⟨rfl, rfl, rfl⟩, ramp := fun _ => .inl rfl }

theorem offer {e : TxEntry} (he : e.sending = false) (s : State) : TickLasting recorded s (s.offer e) := by
  obtain ⟨q, k, hk, flushed⟩ := State.offer_flushed he s
  have fixed := flushed.fixed
  generalize s.offer e = t at fixed
  refine of_fixed ?_ ?_
  · rw [fixed]
    rfl
  · rw [fixed]
    exact hk 0 (by decide)

theorem offerReport (s : State) : TickLasting recorded s s.offerReport := by
  refine ite (fun _ => .refl s) fun _ => trans ?_ (offer rfl _)
  exact ite (fun _ => .refl s) fun _ => of_fixed rfl rfl

/-! ## Changes of node state -/

end TickLasting
end

/-- The clock at a change of node state. -/
theorem State.enterNode_clock_cases (ns : NodeState) (s : State) :
    (s.enterNode ns).clock = s.clock ∧ ¬ s.clockLeaves ns ∨
      (s.enterNode ns).clock = s.clock.freed ∧ s.clockLeaves ns := by
  have exit (t : State) (hc : t.clock = s.clock) (hn : t.engine.nodeState = ns)
      (hl : t.localHolds = s.localHolds) :
      t.clockExit.clock = s.clock ∧ ¬ s.clockLeaves ns ∨
        t.clockExit.clock = s.clock.freed ∧ s.clockLeaves ns := by
    unfold State.clockLeaves State.clockExit State.localStays
    rw [hn, hl, hc]
    cases hs : s.clock.state <;> simp only [reduceCtorEq, false_and, or_self, not_false_iff, and_true, hc, true_or]
    case coasting => cases ns.inPass <;> simp [hc, State.enterFree, State.endPulses, FrameClock.freed]
    case localMarks =>
      cases ns.holdsLocal <;> cases s.localHolds <;>
        simp [hc, State.enterFree, State.endPulses, FrameClock.freed]
  rw [State.enterNode_clock]
  unfold State.nodeBecomes
  dsimp only
  split <;> exact exit _ rfl rfl rfl

section
variable {recorded : Prop} {s t u : State}
namespace TickLasting

theorem enterNode {ns : NodeState} (hp : ns.inPass = true → s.engine.nodeState.inPass = true)
    (hn : ns = .pending → s.engine.nodeState = .pending) : TickLasting recorded s (s.enterNode ns) := by
  have cases := s.enterNode_clock_cases ns
  refine of_tells (.enterNode ns s) ?_ ?_ ?_ (fun ht => ?_) fun hc => ?_
  · simpa using hp
  · simpa using hn
  · refine cases.imp And.left fun ⟨freed, left⟩ => ⟨freed, ?_⟩
    exact left.imp And.left fun ⟨hl, _, hh⟩ => ⟨hl, hh⟩
  · rw [State.enterNode_nodeState] at ht
    refine (cases.resolve_right fun ⟨_, left⟩ => ?_).1
    have holds : ns.holdsLocal = true := by revert ht; cases ns <;> decide
    simp [State.clockLeaves, ht, holds] at left
  · rw [State.enterNode_nodeState]
    rcases cases with ⟨same, stays⟩ | ⟨freed, left⟩
    · simp [same, hc, State.clockLeaves] at stays ⊢
      exact stays
    · simp [freed, hc, State.clockLeaves, FrameClock.freed] at left ⊢
      exact left

/-- A change to a state outside passes and PENDING. -/
theorem enterRest {ns : NodeState} (hn : ns.inPass = false ∧ ns ≠ .pending) (s : State) :
    TickLasting recorded s (s.enterNode ns) :=
  enterNode (fun h => by simp [hn.1] at h) fun h => absurd h hn.2

theorem judgeArm (s : State) : TickLasting recorded s s.judgeArm := by
  unfold State.judgeArm
  split
  · exact ite (fun _ => enterRest (by decide) s) fun _ => .refl s
  · exact ite (fun _ => .refl s) fun _ => enterRest (by decide) s
  · exact ite (fun _ => .refl s) fun _ => (offer rfl s).trans (enterRest (by decide) _)
  all_goals exact .refl s

theorem noted_note (n : Note) (s : State) (k : Fin 6) (h : s.sup.notes[k] = true) :
    (s.note n).sup.notes[k] = true := by
  refine (Vector.getElem_set n.idx.isLt k.isLt).trans ?_
  split
  · rfl
  · exact h

theorem note {n : Note} (hn : n ≠ .truncated) (s : State) : TickLasting recorded s (s.note n) :=
  { TickLasting.refl (recorded := recorded) s with
    noted := noted_note n s
    registered := fun _ _ => by
      have kept : (s.note n).sup.notes[4] = s.sup.notes[4] :=
        Vector.getElem_set_ne n.idx.isLt (by decide) fun h => hn (by revert h; cases n <;> decide)
      refine ⟨rfl, ?_⟩
      rw [State.regMarks, kept]
      rfl }

theorem disarm (s : State) : TickLasting recorded s s.disarm :=
  ((of_fixed rfl rfl : TickLasting recorded s s.offPath).trans (note (by decide) _)).trans
    (enterRest (by decide) _)

/-! ## Raising a cause (R187) -/

theorem latch (c : Cause) (a : Option (Fin 4)) (n : Option Nat) (s : State) :
    TickLasting (c = .grossDeviation) s (s.latch c a n) :=
  { TickLasting.refl (recorded := c = .grossDeviation) s with
    latched := fun k => (Calm.latch c a n s).latchedCause
    noted := fun k h => (congrArg (·.notes[k]) (Supervision.latch_eq c a n s.sup)).trans h
    dispositions := congrArg (·.dispositions) (Supervision.latch_eq c a n s.sup)
    missed := (Calm.latch c a n s).counters 0 (by decide)
    registered := fun hc _ => by
      have notes := congrArg (·.notes) (Supervision.latch_eq c a n s.sup)
      have sets : (s.latch c a n).sup.axisSets[5] = s.sup.axisSets[5] := by
        refine (congrArg (fun v : Vector (BitVec 4) 6 => v[5]) (Supervision.latch_axisSets c a n s.sup)).trans ?_
        exact Supervision.addAxis_axisSets_of_ne (k := 5)
          (fun h => hc (by revert h; cases c <;> simp [Cause.axisSlot])) a s.sup
      refine ⟨rfl, ?_⟩
      rw [State.regMarks, State.latchedCause_latch_of_ne (Ne.symm hc), sets]
      exact congrArg (fun v : Vector Bool 6 => (⟨v[4], _, _⟩ : RegMarks)) notes }

theorem offerHalt (ramp : Nat) (code : Byte) (s : State) : TickLasting recorded s (s.offerHalt ramp code) :=
  (of_fixed rfl rfl : TickLasting recorded s (s.onEngine fun e =>
    { e with halt := { e.halt with ownHalt := some ramp } })).trans (offer rfl _)

/-- An own HALT sets a ramp start two ticks ahead at least (R119). -/
theorem ownHaltEvent (code : Byte) (s : State) : TickLasting recorded s (s.ownHaltEvent code) := by
  by_cases hr : s.engine.halt.rampStart = none
  · have own : TickLasting recorded s (s.onEngine fun e => { e with halt := { e.halt with
        rampStart := some s.engine.ownRampStart, cause := some ⟨code, s.ownNumber⟩ } }) :=
      { TickLasting.refl (recorded := recorded) s with
        ramp := fun _ => .inr ⟨hr, _, rfl, by unfold Engine.ownRampStart haltLead; omega⟩ }
    simp only [State.ownHaltEvent, hr]
    exact own.trans (offerHalt ..)
  · obtain ⟨ramp, hr⟩ := Option.ne_none_iff_exists'.1 hr
    simp only [State.ownHaltEvent, hr]
    exact .refl s

theorem haltRig (c : Cause) (s : State) : TickLasting recorded s (s.haltRig c) := by
  unfold State.haltRig
  split
  · exact ownHaltEvent ..
  · exact (offer rfl s).trans (disarm _)
  · exact disarm s
  · exact of_fixed rfl rfl
  · exact of_fixed rfl rfl
  all_goals exact .refl s

theorem onAxes {f : AxisChannel → AxisChannel} (hf : ∀ x, (f x).sensed = x.sensed) (s : State) :
    TickLasting recorded s (s.onAxes f) :=
  { TickLasting.refl (recorded := recorded) s with sensed := fun a => by simpa using hf s.axes[a] }

theorem onAxis {a : Fin 4} {f : AxisChannel → AxisChannel} (hf : ∀ x, (f x).sensed = x.sensed) (s : State) :
    TickLasting recorded s (s.onAxis a f) :=
  { TickLasting.refl (recorded := recorded) s with
    sensed := fun b => by
      by_cases h : a = b
      · subst h
        simpa using hf s.axes[a]
      · exact congrArg AxisChannel.sensed (Vector.getElem_set_ne a.isLt b.isLt fun hi => h (Fin.ext hi)) }

theorem stopAxes (s : State) : TickLasting recorded s s.stopAxes :=
  (onAxes (f := fun x => { x with plan := none }) (fun _ => rfl) s).trans (of_fixed rfl rfl)

/-- Registration's own change, where it is recorded. -/
theorem onReg (f : Registration → Registration) (s : State) : TickLasting True s (s.onReg f) :=
  { TickLasting.refl (recorded := True) s with registered := fun h => absurd trivial h }

end TickLasting
end

/-- Whether the node is the lone participant is read off the serials' strap bits alone (R44). -/
theorem Roster.aloneParticipant_congr {r r' : Roster}
    (ht : r'.table.map RosterEntry.participant = r.table.map RosterEntry.participant) (hp : r'.phase = r.phase)
    (ho : r'.ownPosition = r.ownPosition) : r'.aloneParticipant = r.aloneParticipant := by
  have count (q : Roster) : q.participantCount = (q.table.map RosterEntry.participant).countP id := by
    rw [List.countP_map]
    rfl
  unfold Roster.aloneParticipant
  simp only [hp, ho, count, ht, ← List.getElem?_map]

section
variable {recorded : Prop} {s t u : State}
namespace TickLasting

/-- A change of the roster's entries that leaves their strap bits. -/
theorem onTable {f : List RosterEntry → List RosterEntry}
    (hf : (f s.roster.table).map RosterEntry.participant = s.roster.table.map RosterEntry.participant) :
    TickLasting recorded s (s.onRoster fun r => { r with table := f r.table }) :=
  { TickLasting.refl (recorded := recorded) s with alone := Roster.aloneParticipant_congr hf rfl rfl }

theorem endWatch (s : State) : TickLasting recorded s s.endWatch :=
  onTable (f := List.map fun e => { e with watched := false }) (by simp [Function.comp_def])

theorem enterStopped (s : State) : TickLasting recorded s s.enterStopped :=
  (of_fixed rfl rfl : TickLasting recorded s (s.onEngine fun e => { e with slew := none })).trans
    (enterRest (by decide) _)

/-- A load abandoned outside a pass (R69). -/
theorem abandonLoad (hs : s.engine.nodeState.inPass = false) : TickLasting recorded s s.abandonLoad := by
  have discarded (hp : s.store.phase ≠ .valid) : TickLasting recorded s (s.onStore MoveStore.discard) :=
    { TickLasting.refl (recorded := recorded) s with
      pool := rfl, store := .inr ⟨hp, by simp [MoveStore.discard]⟩
      inPass := fun h => by simp [hs] at h }
  unfold State.abandonLoad
  split
  next h => exact discarded (by simp [h])
  next h =>
    split
    · exact (discarded (by simp [h])).trans (offer rfl _)
    · exact discarded (by simp [h])
  all_goals exact .refl s

theorem stopNow (c : Cause) (s : State) : TickLasting recorded s (s.stopNow c) := by
  have stopped := stopAxes (recorded := recorded) s
  have generic (b : Byte) : TickLasting recorded s (s.stopAxes.offerGenericHalt b) := stopped.trans (offer rfl _)
  have resumes : TickLasting recorded s (s.stopAxes.onRoster fun r => { r with resume := .stopped }) :=
    stopped.trans (of_fixed rfl rfl)
  have left (hs : s.engine.nodeState.inPass = true) : TickLasting recorded s (((match s.engine.halt.rampStart with
      | some _ => s.stopAxes
      | none => s.stopAxes.offerHalt s.engine.ownRampStart c.byte).registerEnd .stopped
        (some ⟨c.byte, s.ownNumber⟩)).endWatch).enterStopped := by
    have halted : TickLasting True s (match s.engine.halt.rampStart with
        | some _ => s.stopAxes
        | none => s.stopAxes.offerHalt s.engine.ownRampStart c.byte) := by
      split
      · exact stopAxes s
      · exact (stopAxes s).trans (offerHalt ..)
    have told {t : State} (ht : TickLasting True s t) :
        TickLasting True s ((t.registerEnd .stopped (some ⟨c.byte, s.ownNumber⟩)).endWatch).enterStopped :=
      ((ht.trans (onReg _ _)).trans (endWatch _)).trans (enterStopped _)
    exact of_left (told halted).toClockLasting (told halted).tick hs
      (by simp [State.enterStopped, NodeState.inPass])
  unfold State.stopNow
  split
  next h => exact left (by rw [h]; rfl)
  next h => exact left (by rw [h]; rfl)
  · exact ((stopped.trans (offer rfl _)).trans (note (by decide) _)).trans (enterStopped _)
  · exact ((generic _).trans (note (by decide) _)).trans (enterStopped _)
  iterate 5 exact (generic _).trans (enterStopped _)
  · exact ((generic _).trans (enterStopped _)).trans
      (abandonLoad (by simp [State.enterStopped, NodeState.inPass]))
  · exact stopped
  all_goals exact resumes

/-- A raised cause leaves registration and its marks, but for GROSS_DEVIATION's own. -/
theorem raise (c : Cause) (a : Option (Fin 4)) (n : Option Nat) (s : State) :
    TickLasting (c = .grossDeviation) s (s.raise c a n) := by
  unfold State.raise
  dsimp only
  split
  · exact latch ..
  · exact (latch ..).trans (haltRig ..)
  · exact (latch ..).trans (stopNow ..)

theorem raise_other {c : Cause} (hc : c ≠ .grossDeviation) (a : Option (Fin 4)) (n : Option Nat) (s : State) :
    TickLasting recorded s (s.raise c a n) :=
  weaken { raise c a n s with registered := fun _ => (raise c a n s).registered hc }

end TickLasting
end

end Sys2Proof.Machine
end

section
/-! PROOFS. What the pass ticks leave under any dispositions (R46, R47, R108, R124). -/

namespace Sys2Proof.Machine

/-! ## What a channel's plan leaves (R134 to R142) -/

theorem AxisChannel.countDeficit_sensed (p : Option (Plan × Bool)) (x : AxisChannel) :
    (x.countDeficit p).sensed = x.sensed := by
  unfold AxisChannel.countDeficit
  split <;> rfl

theorem AxisChannel.replacePlan_sensed (now : Nat) (p : Option (Plan × Bool)) (x : AxisChannel) :
    (x.replacePlan now p).sensed = x.sensed := by
  have settled (y : AxisChannel) : (y.settleDir now).sensed = y.sensed := by
    unfold AxisChannel.settleDir
    dsimp only
    split <;> rfl
  unfold AxisChannel.replacePlan
  split
  · rfl
  · exact settled _

theorem Supervision.suppressed_sensed (u : Supervision) (a : Fin 4) (x : AxisChannel) :
    (u.suppressed a x).sensed = x.sensed := by
  have drop (p : Prop) [Decidable p] (b : Bool) (x : AxisChannel) :
      (if p then x.dropPulses b else x).sensed = x.sensed := by
    unfold AxisChannel.dropPulses
    repeat' split
    all_goals rfl
  unfold Supervision.suppressed
  rw [drop, drop]
  split <;> rfl

section
variable {recorded : Prop}

namespace TickLasting

/-! ## Evaluations and targets -/

theorem arithException (code : ExceptionCode) (a : Fin 4) (key : Option Nat) (occasion : Occasion) (n : Nat)
    (s : State) : TickLasting recorded s (s.arithException code a key occasion n) := by
  obtain ⟨e, free, record, -⟩ := (s.raise .arithOverflow none none).recordException_eq code a key occasion n
  unfold State.arithException
  rw [record]
  exact (raise_other (by decide) ..).trans (of_fixed rfl rfl)

theorem raiseAxisEval (a : Fin 4) (ev : AxisEval) (occasion : Occasion) (n : Nat) (s : State) :
    TickLasting recorded s (s.raiseAxisEval a ev occasion n) := by
  have excepted (p : Prop) [Decidable p] (code : ExceptionCode) (t : State) : TickLasting recorded t
      (if p then t.arithException code a ev.keyIndex occasion n else t) :=
    ite (fun _ => arithException ..) fun _ => .refl t
  exact ((excepted (ev.overflowEval = true) .overflowEval s).trans
    (excepted (ev.overflowScale = true) .overflowScale _)).trans
    (ite (fun _ => raise_other (by decide) ..) fun _ => .refl _)

theorem raiseEval (evs : Vector (Option AxisEval) 4) (occasion : Occasion) (n : Nat) (s : State) :
    TickLasting recorded s (s.raiseEval evs occasion n) := by
  refine foldl (fun s a => ?_) _ s
  split
  · exact raiseAxisEval ..
  · exact .refl s

theorem followingCheck (a : Fin 4) (s : State) : TickLasting recorded s (s.followingCheck a) := by
  rcases State.followingCheck_cases (s := s) a with h | h <;> rw [h]
  · exact .refl s
  · exact raise_other (by decide) ..

theorem handTarget (a : Fin 4) (target : Int) (duration : Nat) (s : State) :
    TickLasting recorded s (s.handTarget a target duration) := by
  rw [State.handTarget_eq rfl rfl]
  refine (followingCheck a s).trans (ite (fun _ => .refl _) fun _ => ?_)
  rw [State.suppress_eq]
  refine trans (trans ?_ (onAxis (AxisChannel.replacePlan_sensed _ _) _))
    (onAxis (Supervision.suppressed_sensed _ a) _)
  exact ite (fun _ => (onAxis (AxisChannel.countDeficit_sensed _) _).trans (raise_other (by decide) ..))
    fun _ => .refl _

theorem handHeld (a : Fin 4) (target : Int) (duration : Nat) (s : State) :
    TickLasting recorded s (s.handHeld a target duration) :=
  (of_fixed rfl rfl : TickLasting recorded s (s.onEngine fun e =>
    { e with holdTargets := e.holdTargets.set a target })).trans (handTarget ..)

theorem targetsHanded (evs : Fin 4 → Option AxisEval) (duration : Nat) (axes : List (Fin 4)) (s : State) :
    TickLasting recorded s (s.targetsHanded evs duration axes) := by
  refine foldl (fun s a => ?_) _ s
  cases evs a with
  | none => exact .refl s
  | some ev => exact handHeld ..

theorem evaluateLevels (t : Nat) (s : State) : TickLasting recorded s (s.evaluateLevels t) := by
  obtain ⟨ls, taken, -⟩ := s.evaluateLevels_taken t
  rw [taken]
  exact of_fixed rfl rfl

theorem tickWork (p : PassParams) (index duration : Nat) (s : State) :
    TickLasting recorded s (s.tickWork p index duration) := by
  rw [State.tickWork_eq]
  dsimp only
  have leveled (t : State) : TickLasting recorded t (t.levelsAt index s.engine.moveTime) :=
    ite (fun _ => evaluateLevels ..) fun _ => .refl t
  have applied (es : List CueEntry) (t : State) : TickLasting recorded t (t.applyEntries es) := of_fixed rfl rfl
  exact (((raiseEval ..).trans (targetsHanded ..)).trans (leveled _)).trans (applied ..)

/-! ## Ends, reports and checks -/

theorem reportIfDue (s : State) : TickLasting recorded s s.reportIfDue := by
  unfold State.reportIfDue
  split
  · exact ite (fun _ => offerReport s) fun _ => .refl s
  · exact .refl s

theorem missingChecks_participant (interval n k : Nat) (es : List RosterEntry) :
    (missingChecks interval n k es).1.map RosterEntry.participant = es.map RosterEntry.participant := by
  refine List.ext_getElem? fun i => ?_
  simp only [List.getElem?_map, missingChecks_getElem?, Option.map_map]
  refine congrArg (Option.map · es[i]?) (funext fun e => ?_)
  simp only [Function.comp_apply]
  split
  · unfold RosterEntry.missingCheck
    repeat' split
    all_goals rfl
  · rfl

theorem checkMissing (s : State) : TickLasting recorded s s.checkMissing := by
  unfold State.checkMissing
  split
  next p hp =>
    dsimp only
    have table : TickLasting recorded s (s.onRoster fun r =>
        { r with table := (missingChecks p.interval s.engine.tick 0 r.table).1 }) :=
      onTable (f := fun es => (missingChecks p.interval s.engine.tick 0 es).1) (missingChecks_participant ..)
    exact table.trans (foldl (fun s i => raise_other (by decide) ..) _ _)
  · exact .refl s

/-- What the ends of a pass write before the change of node state. -/
theorem passOver (pass : PassParams) (ending : PassEnding) (cause : Option HaltCause) (halt : HaltRecord)
    (s : State) : ClockLasting True s (s.passOver pass ending cause halt) :=
  { ClockLasting.refl (recorded := True) s with
    alone := Roster.aloneParticipant_congr (by simp [State.passOver, Function.comp_def]) rfl rfl
    registered := fun h => absurd trivial h }

/-- A pass that ends behind a tick's work. -/
theorem of_passOver {s t : State} (h : TickLasting False s t) (hs : s.engine.nodeState.inPass = true)
    {ns : NodeState} (hn : ns.inPass = false ∧ ns ≠ .pending) (pass : PassParams) (ending : PassEnding)
    (cause : Option HaltCause) (halt : HaltRecord) :
    TickLasting recorded s ((t.passOver pass ending cause halt).enterNode ns) := by
  have entered := enterRest (recorded := True) hn (t.passOver pass ending cause halt)
  refine of_left ((h.weaken.toClockLasting.trans (passOver ..)).trans entered.toClockLasting) ?_ hs
    (by simp [hn.1])
  exact ⟨entered.tick.1.trans h.tick.1, entered.tick.2.1.trans h.tick.2.1, entered.tick.2.2.trans h.tick.2.2⟩

/-! ## The tick (R108, R124) -/

theorem runningTick {s : State} (hs : s.engine.nodeState.inPass = true) (p : PassParams) (index duration : Nat) :
    TickLasting recorded s (s.runningTick p index duration) := by
  have worked (recorded : Prop) : TickLasting recorded s ((s.onEngine fun e =>
      { e with moveTime := runningTime e.tick p.rate s.store.tEnd }).tickWork p index duration) :=
    (of_fixed rfl rfl : TickLasting recorded s (s.onEngine _)).trans (tickWork ..)
  unfold State.runningTick
  refine ite (fun hend => ?_) fun _ => (worked _).trans (reportIfDue _)
  rw [State.endPassEnded_eq hend]
  exact of_passOver (worked False) hs (by decide) ..

theorem rampTick {s : State} (hs : s.engine.nodeState.inPass = true) (p : PassParams)
    (ramp index duration : Nat) : TickLasting recorded s (s.rampTick p ramp index duration) := by
  unfold State.rampTick
  have halting (recorded : Prop) : TickLasting recorded s
      (if s.engine.nodeState = .halting then s else s.enterNode .halting) :=
    ite (fun _ => .refl s) fun _ => enterNode (fun _ => hs) (by simp)
  generalize (if s.engine.nodeState = .halting then s else s.enterNode .halting) = t at halting
  have worked (recorded : Prop) := ((halting recorded).trans
    (of_fixed rfl rfl : TickLasting recorded t (t.onEngine fun e =>
      { e with
        halt := { e.halt with rampIndex := e.tick - ramp }
        moveTime := rampTime e.moveTime p.rate p.haltLength (e.tick - ramp) t.store.tEnd }))).trans
    (tickWork p index duration _)
  refine ite (fun _ => ?_) fun _ => (worked _).trans (reportIfDue _)
  rw [State.endPassHalted_eq]
  exact of_passOver (worked False) hs (by decide) ..

/-- A pass tick, from its count on. -/
theorem passWork {s : State} (hs : s.engine.nodeState.inPass = true) {pass : PassParams}
    (hp : s.engine.params = some pass) (index duration : Nat) :
    TickLasting recorded (s.onEngine (Engine.takeTick duration)) (s.passWork index duration) := by
  unfold State.passWork
  rw [hp]
  dsimp only
  have taken : (s.onEngine (Engine.takeTick duration)).engine.nodeState.inPass = true := hs
  have ticked : TickLasting recorded (s.onEngine (Engine.takeTick duration))
      (match (s.onEngine (Engine.takeTick duration)).engine.halt.rampStart with
      | some ramp =>
        if ramp < (s.onEngine (Engine.takeTick duration)).engine.tick
        then (s.onEngine (Engine.takeTick duration)).rampTick pass ramp index duration
        else (s.onEngine (Engine.takeTick duration)).runningTick pass index duration
      | none => (s.onEngine (Engine.takeTick duration)).runningTick pass index duration) := by
    split
    · exact ite (fun _ => rampTick taken ..) fun _ => runningTick taken ..
    · exact runningTick taken ..
  exact ite (fun _ => ticked.trans (checkMissing _)) fun _ => ticked

end TickLasting

/-! ## The frame's ticks (R46, R47) -/

/-- The clock has issued tick `index` of its frame, or none. -/
def State.withIndex (index : Option Nat) (s : State) : State :=
  s.onClock fun c => { c with tickIndex := index }

theorem ClockLasting.onEngine {f : Engine → Engine} {s : State}
    (hn : (f s.engine).nodeState = s.engine.nodeState) : ClockLasting recorded s (s.onEngine f) :=
  { ClockLasting.refl (recorded := recorded) s with
    inPass := fun h => ⟨hn ▸ h, rfl⟩
    pending := fun h => hn ▸ h
    stands := fun _ => rfl
    registered := fun _ _ => ⟨rfl, rfl⟩
    coasting := fun hc hp => ⟨fun _ => hn.symm ▸ hp, fun _ => hc⟩ }

theorem ClockLasting.takePassTick (index duration : Nat) (s : State) :
    ClockLasting recorded s (s.takePassTick index duration) := by
  have counted : ClockLasting recorded s (s.onCues CueLine.countDown) :=
    (TickLasting.of_fixed rfl rfl : TickLasting recorded s (s.onCues CueLine.countDown)).toClockLasting
  unfold State.takePassTick
  refine counted.trans (RaiseClosed.of_ite (fun hs => ?_) fun _ => .refl _)
  cases hp : s.engine.params with
  | none =>
    have idle : (s.onCues CueLine.countDown).passWork index duration = s.onCues CueLine.countDown := by
      simp [State.passWork, hp]
    rw [idle]
    exact .refl _
  | some pass => exact (ClockLasting.onEngine rfl).trans (TickLasting.passWork hs hp ..).toClockLasting

theorem ClockLasting.issueTick (index : Nat) (s : State) :
    ClockLasting recorded (s.withIndex (some index)) (s.issueTick index) := .takePassTick ..

/-- A clock that issues no ticks drops the rest of the frame's. -/
theorem State.catchUp_of_not_ticking {s : State} (h : s.clock.state.ticking = false) (fuel : Nat) :
    s.catchUp fuel = s := by
  cases fuel with
  | zero => rfl
  | succ fuel => simp [State.catchUp, FrameClock.nextTick, h]

theorem ClockLasting.withIndex {s t : State} (h : ClockLasting recorded s t) (hc : t.clock = s.clock)
    (index : Option Nat) : ClockLasting recorded (s.withIndex index) (t.withIndex index) :=
  { h with
    clock := .inl (congrArg (fun c : FrameClock => { c with tickIndex := index }) hc)
    stands := fun _ => congrArg (fun c : FrameClock => { c with tickIndex := index }) hc
    coasting := h.coasting }

/-- The ticks issued before a mark, up to the frame's last. -/
theorem ClockLasting.catchUp (fuel : Nat) (s : State) :
    ∃ index, ClockLasting recorded (s.withIndex index) (s.catchUp fuel) := by
  induction fuel generalizing s with
  | zero => exact ⟨s.clock.tickIndex, .refl s⟩
  | succ fuel ih =>
    unfold State.catchUp
    split
    next j _ =>
      have issued := ClockLasting.issueTick (recorded := recorded) j s
      cases ticking : (s.issueTick j).clock.state.ticking with
      | false =>
        rw [State.catchUp_of_not_ticking ticking]
        exact ⟨some j, issued⟩
      | true =>
        have kept := issued.clock.resolve_right fun ⟨freed, _⟩ => by
          simp [freed, FrameClock.freed, ClockState.ticking] at ticking
        obtain ⟨index, rest⟩ := ih (s.issueTick j)
        exact ⟨index, (issued.withIndex kept index).trans rest⟩
    · exact ⟨s.clock.tickIndex, .refl s⟩

end

end Sys2Proof.Machine
end

section
/-! PROOFS. A closed frame's midpoints in registration, under any disposition but STOP_NOW (R156 to R160). -/

namespace Sys2Proof.Machine

/-! ## What registration's operations write -/

/-- The deviation of a midpoint, where a comparison is made (R157, R158). -/
def Registration.deviation (frame : Nat) (a : Fin 4) (m : Midpoint) (r : Registration) : Option Int :=
  if r.comparable && r.compared[a] then (r.referenceAt frame a).map (m.value - ·) else none

/-- What a comparison finds: the entry of a deviation beyond the tolerance. -/
def foundEntry (tolerance frame : Nat) (a : Fin 4) (v : Option Int) : Option DeviationEntry :=
  v.bind fun v =>
    if tolerance < v.natAbs then some ⟨frame, a, v, if 4 * tolerance < v.natAbs then .gross else .over⟩
    else none

/-- The deviation is GROSS. -/
def isGross (tolerance : Nat) (v : Option Int) : Bool := v.any fun v => decide (4 * tolerance < v.natAbs)

/-- A list of findings with those that no longer fit counted (R159). -/
def Registration.withFindings (r base : Registration) (found : List DeviationEntry) : Registration :=
  { r with
    deviations := base.deviations ++ found.take (64 - base.deviations.length)
    overflow := base.overflow + (found.length - (64 - base.deviations.length)) }

section
variable (tolerance frame : Nat) (a : Fin 4) (m : Midpoint) (r : Registration)

theorem Registration.addDeviation_withFindings (base : Registration) (found : List DeviationEntry)
    (e : DeviationEntry) :
    (r.withFindings base found).addDeviation e = r.withFindings base (found ++ [e]) := by
  unfold addDeviation withFindings Config.deviationCapacity
  simp only [List.length_append, List.length_take, List.length_cons, List.length_nil]
  split
  next room =>
    have fits : found.length + 1 ≤ 64 - base.deviations.length := by omega
    rw [List.take_of_length_le (by omega), List.take_of_length_le (by simpa using fits), List.append_assoc]
    congr 1
    omega
  next full =>
    have filled : 64 - base.deviations.length ≤ found.length := by omega
    rw [List.take_append_of_le_length filled]
    congr 1
    omega

/-- A comparison's own work beside its finding. -/
def Registration.compareCounted (v : Option Int) : Registration :=
  { r with
    comparisons := r.comparisons + v.isSome.toNat
    maxima := match v with
      | some v => r.maxima.set a (r.maxima[a].update frame v)
      | none => r.maxima
    grossSeen := r.grossSeen || isGross tolerance v }

theorem Registration.compare_eq : r.compare tolerance frame a m =
    ((match foundEntry tolerance frame a (r.deviation frame a m) with
      | some e => (r.compareCounted tolerance frame a (r.deviation frame a m)).addDeviation e
      | none => r.compareCounted tolerance frame a (r.deviation frame a m)),
     isGross tolerance (r.deviation frame a m)) := by
  unfold compare deviation
  cases hr : r.referenceAt frame a with
  | none => simp [foundEntry, isGross, compareCounted]
  | some ref =>
    cases hc : r.comparable && r.compared[a] with
    | false => simp [foundEntry, isGross, compareCounted]
    | true =>
      simp only [gradeOf, if_pos, Option.map_some, foundEntry, Option.bind_some, isGross, Option.any_some]
      generalize m.value - ref = v
      by_cases within : v.natAbs ≤ tolerance
      · simp [compareCounted, isGross, within, Nat.not_lt.2 within, show ¬ 4 * tolerance < v.natAbs by omega]
      · have found : tolerance < v.natAbs := Nat.not_le.1 within
        by_cases few : v.natAbs ≤ 4 * tolerance
        · simp [compareCounted, isGross, within, few, found, Nat.not_lt.2 few]
        · simp [compareCounted, isGross, within, few, found, Nat.not_le.1 few, addDeviation]
          split <;> rfl

/-- A midpoint's write leaves all but the capture buffer and, at pass frame 0, the axes compared. -/
theorem Registration.write_eq : r.write frame a m = { r with
    buffer1 := (r.write frame a m).buffer1, buffer2 := (r.write frame a m).buffer2
    compared := if frame = 0 then
      r.compared.set a (r.comparable && r.referenceSource a == some m.source) else r.compared } := by
  have source (b : CaptureBuffer) : (r.setCapture b).referenceSource a = r.referenceSource a := by
    unfold referenceSource
    rw [setCapture_reference]
  have fixed (b : CaptureBuffer) := r.setCapture_eq b
  unfold write
  dsimp only
  split
  · simp only [source]
    rw [fixed]
  · exact fixed _

theorem Registration.write_capture : (r.write frame a m).capture =
    { holds := if frame = 0 then
        r.capture.holds.map fun d => { d with sources := d.sources.set a (some m.source) } else r.capture.holds
      frames := r.capture.frames.write frame
        (((r.capture.frames.read frame).getD (Vector.ofFn fun _ => none)).set a (some m.value)) } := by
  unfold write
  dsimp only
  split <;> exact setCapture_capture ..

/-- A comparison leaves the buffers and all that decides it. -/
theorem Registration.compare_fixed : (r.compare tolerance frame a m).1 = { r with
    comparisons := (r.compare tolerance frame a m).1.comparisons
    maxima := (r.compare tolerance frame a m).1.maxima
    deviations := (r.compare tolerance frame a m).1.deviations
    overflow := (r.compare tolerance frame a m).1.overflow
    grossSeen := (r.compare tolerance frame a m).1.grossSeen } := by
  rw [compare_eq]
  dsimp only
  split
  · unfold addDeviation
    split <;> rfl
  · rfl

theorem Registration.compare_capture : (r.compare tolerance frame a m).1.capture = r.capture := by
  rw [compare_fixed]
  rfl

end

/-! ## The claims' terms -/

section
variable (s : State) (now frame : Nat) (a : Fin 4)

/-- The deviation lies beyond so many tolerances. -/
def State.beyond (factor : Nat) : Bool :=
  (s.deviationOf now frame a).any fun v =>
    decide (factor * ((s.store.axisSetups[a].map AxisSetup.tolerance).getD 0) < v.natAbs)

theorem MoveStore.tolerance_eq (st : MoveStore) : st.tolerance a =
    (st.axisSetups[a].map AxisSetup.tolerance).getD 0 := by
  unfold MoveStore.tolerance
  cases st.axisSetups[a] <;> rfl

theorem State.isGross_deviationOf :
    isGross (s.store.tolerance a) (s.deviationOf now frame a) = s.beyond now frame a 4 := by
  rw [MoveStore.tolerance_eq]
  rfl

/-- The entries that the axes of a list bring. -/
def State.findings (done : List (Fin 4)) : List DeviationEntry :=
  done.filterMap fun a => foundEntry (s.store.tolerance a) frame a (s.deviationOf now frame a)

end

/-! ## Registration in the middle of a frame's midpoints -/

section
variable (s : State) (now frame : Nat)

/-- Cells of the frame's row: the midpoints of the axes done so far, every other axis absent (R152, R156). -/
structure Registration.RowWritten (done : List (Fin 4)) (r : Registration) : Prop where
  wf : r.capture.frames.wf = true
  frames : ∀ n, r.capture.frames.read n =
    if n = frame then some (Vector.ofFn fun a => if a ∈ done then (s.midpointTaken now a).map Prod.fst else none)
    else s.reg.capture.frames.read n

/-- The axes of `done` have handed their midpoints to registration, the others not yet (R156 to R160). -/
structure Registration.Recorded (done : List (Fin 4)) (r : Registration) : Prop where
  fixed : r = { s.reg with
    buffer1 := r.buffer1, buffer2 := r.buffer2, compared := r.compared, maxima := r.maxima
    comparisons := s.reg.comparisons + done.countP fun a => (s.deviationOf now frame a).isSome
    deviations := s.reg.deviations ++ (s.findings now frame done).take (64 - s.reg.deviations.length)
    overflow := s.reg.overflow + ((s.findings now frame done).length - (64 - s.reg.deviations.length))
    grossSeen := s.reg.grossSeen || done.any fun a => s.beyond now frame a 4 }
  reference : r.reference = s.reg.reference
  compared : ∀ a : Fin 4, r.compared[a] =
    if a ∈ done then s.axisCompared now frame a else s.reg.compared[a]
  maxima : ∀ a : Fin 4, r.maxima[a] = if a ∈ done then
      match s.deviationOf now frame a with
      | some v => if s.reg.maxima[a].value < v.natAbs then ⟨v.natAbs, some frame⟩ else s.reg.maxima[a]
      | none => s.reg.maxima[a]
    else s.reg.maxima[a]
  holds : ∀ d, s.reg.capture.holds = some d → r.capture.holds = some { d with
    sources := Vector.ofFn fun a => if a ∈ done ∧ frame = 0 then
      ((s.midpointTaken now a).map Prod.snd).or d.sources[a] else d.sources[a] }

end

section
variable {s : State} {now frame : Nat} {done : List (Fin 4)} {a : Fin 4} {r : Registration} {m : Midpoint}

namespace Registration

/-- A vector of what is done so far, one more axis written. -/
theorem ofFn_done_set {α : Type} (f g : Fin 4 → α) (done : List (Fin 4)) (a : Fin 4) (x : α) (hx : x = f a) :
    (Vector.ofFn fun b => if b ∈ done then f b else g b).set a x =
      Vector.ofFn fun b => if b ∈ done ++ [a] then f b else g b := by
  refine Vector.ext fun i hi => ?_
  rw [Vector.getElem_set, Vector.getElem_ofFn, Vector.getElem_ofFn]
  by_cases h : a.val = i
  · subst h
    simp [hx]
  · have other : (⟨i, hi⟩ : Fin 4) ≠ a := fun k => h (congrArg Fin.val k).symm
    simp [h, other]

theorem getElem_set_done {α : Type} {v : Vector α 4} {f g : Fin 4 → α} {done : List (Fin 4)}
    (h : ∀ b : Fin 4, v[b] = if b ∈ done then f b else g b) (a : Fin 4) {x : α} (hx : x = f a) (b : Fin 4) :
    (v.set a x)[b] = if b ∈ done ++ [a] then f b else g b := by
  have whole : v = Vector.ofFn fun b => if b ∈ done then f b else g b :=
    Vector.ext fun i hi => by rw [Vector.getElem_ofFn]; exact h ⟨i, hi⟩
  rw [whole, ofFn_done_set f g done a x hx]
  exact Vector.getElem_ofFn b.isLt

theorem ite_done {α : Type} (done : List (Fin 4)) (a b : Fin 4) (x y : α) (h : b = a → x = y) :
    (if b ∈ done ++ [a] then x else y) = if b ∈ done then x else y := by
  by_cases hb : b = a
  · simp [h hb]
  · simp [hb]

theorem RowWritten.skip (h : RowWritten s now frame done r) (hm : s.midpointTaken now a = none) :
    RowWritten s now frame (done ++ [a]) r where
  wf := h.wf
  frames n := by
    have row : (Vector.ofFn fun b => if b ∈ done ++ [a] then (s.midpointTaken now b).map Prod.fst else none) =
        Vector.ofFn fun b => if b ∈ done then (s.midpointTaken now b).map Prod.fst else none :=
      congrArg Vector.ofFn (funext fun b => ite_done done a b _ _ fun hb => by rw [hb, hm]; rfl)
    rw [h.frames n, row]

/-- A midpoint's cell is written, whatever its comparison does. -/
theorem RowWritten.write (h : RowWritten s now frame done r)
    (hm : s.midpointTaken now a = some (m.value, m.source)) :
    RowWritten s now frame (done ++ [a]) (r.write frame a m) where
  wf := by
    rw [write_capture]
    exact Cells.wf_write _ _ _ h.wf
  frames n := by
    rw [write_capture]
    dsimp only
    rw [Cells.read_write _ _ _ _ h.wf]
    simp only [h.frames, if_pos, Option.getD_some]
    split
    · rw [ofFn_done_set _ _ done a _ (by simp [hm])]
    · rfl

/-! ## One axis's midpoint -/

theorem referenceSource_eq : r.referenceSource a = r.reference.holds.bind fun d => d.sources[a] := by
  unfold referenceSource
  cases r.reference.holds <;> rfl

theorem referenceAt_eq : r.referenceAt frame a = r.reference.holds.bind fun d =>
    if frame < d.framesRecorded then (r.reference.frames.read frame).bind fun row => row[a] else none := by
  unfold referenceAt
  cases r.reference.holds with
  | none => rfl
  | some d =>
    simp only [Option.bind_some]
    split
    · cases r.reference.frames.read frame <;> rfl
    · rfl

/-- What a written midpoint has of the comparison's terms. -/
theorem Recorded.written (h : Recorded s now frame done r) (ha : a ∉ done)
    (hm : s.midpointTaken now a = some (m.value, m.source)) :
    (r.write frame a m).compared = (if frame = 0 then r.compared.set a (s.axisCompared now frame a) else r.compared) ∧
    (r.write frame a m).deviation frame a m = s.deviationOf now frame a := by
  have comparable : r.comparable = s.reg.comparable := by rw [h.fixed]
  have before : r.compared[a] = s.reg.compared[a] := by simp [h.compared a, ha]
  have written : (r.write frame a m).compared =
      if frame = 0 then r.compared.set a (s.axisCompared now frame a) else r.compared := by
    rw [write_eq]
    dsimp only
    split
    · simp [State.axisCompared, referenceSource_eq, h.reference, *]
    · rfl
  have decides : (r.write frame a m).compared[a] = s.axisCompared now frame a := by
    rw [written]
    split
    · exact Vector.getElem_set_self ..
    · rw [before]
      simp [State.axisCompared, *]
  have same : (r.write frame a m).comparable = s.reg.comparable := by rw [write_eq, comparable]
  have reference : (r.write frame a m).reference = s.reg.reference := (write_roles ..).trans h.reference
  refine ⟨written, ?_⟩
  rw [deviation, decides, same, referenceAt_eq, reference, State.deviationOf, hm]
  cases s.reg.reference.holds with
  | none => simp
  | some d =>
    simp only [Option.bind_some, Bool.and_eq_true, decide_eq_true_eq]
    by_cases hf : frame < d.framesRecorded <;> simp [hf]

theorem Recorded.skip (h : Recorded s now frame done r) (hm : s.midpointTaken now a = none) :
    Recorded s now frame (done ++ [a]) r := by
  have uncompared : s.axisCompared now frame a = s.reg.compared[a] := by simp [State.axisCompared, hm]
  have undeviated : s.deviationOf now frame a = none := by simp [State.deviationOf, hm]
  exact {
    fixed := by
      rw [h.fixed]
      simp [State.findings, State.beyond, undeviated, foundEntry]
    reference := h.reference
    compared := fun b => by rw [h.compared b, ite_done done a b _ _ fun hb => by rw [hb, uncompared]]
    maxima := fun b => by rw [h.maxima b, ite_done done a b _ _ fun hb => by rw [hb, undeviated]]
    holds := fun d hd => by
      rw [h.holds d hd]
      congr 3
      funext b
      by_cases hb : b = a
      · simp [hb, hm]
      · simp [hb] }

theorem findings_append (s : State) (now frame : Nat) (done : List (Fin 4)) (a : Fin 4) :
    s.findings now frame (done ++ [a]) = s.findings now frame done ++
      (foundEntry (s.store.tolerance a) frame a (s.deviationOf now frame a)).toList := by
  unfold State.findings
  rw [List.filterMap_append]
  cases h : foundEntry (s.store.tolerance a) frame a (s.deviationOf now frame a) <;> simp [h]

theorem Recorded.compared_eq (h : Recorded s now frame done r) (ha : a ∉ done)
    (hm : s.midpointTaken now a = some (m.value, m.source)) :
    (r.write frame a m).compare (s.store.tolerance a) frame a m =
      (((r.write frame a m).compareCounted (s.store.tolerance a) frame a
          (s.deviationOf now frame a)).withFindings s.reg (s.findings now frame (done ++ [a])),
       s.beyond now frame a 4) := by
  rw [compare_eq, (h.written ha hm).2, State.isGross_deviationOf, findings_append]
  have counted : (r.write frame a m).compareCounted (s.store.tolerance a) frame a (s.deviationOf now frame a) =
      ((r.write frame a m).compareCounted (s.store.tolerance a) frame a
        (s.deviationOf now frame a)).withFindings s.reg (s.findings now frame done) := by
    unfold compareCounted withFindings
    rw [write_eq, h.fixed]
  cases foundEntry (s.store.tolerance a) frame a (s.deviationOf now frame a) with
  | none =>
    simp only [Option.toList_none, List.append_nil]
    rw [counted]
    rfl
  | some e =>
    dsimp only [Option.toList_some]
    rw [counted, addDeviation_withFindings]
    rfl

theorem Recorded.take (h : Recorded s now frame done r) (ha : a ∉ done)
    (hm : s.midpointTaken now a = some (m.value, m.source)) :
    Recorded s now frame (done ++ [a]) ((r.write frame a m).compare (s.store.tolerance a) frame a m).1 := by
  have unmaxed : r.maxima[a] = s.reg.maxima[a] := by simp [h.maxima a, ha]
  have maxima : (r.write frame a m).maxima = r.maxima := by rw [write_eq]
  have compared : ((r.write frame a m).compare (s.store.tolerance a) frame a m).1.compared =
      (r.write frame a m).compared := by rw [compare_fixed]
  exact {
    fixed := by
      rw [h.compared_eq ha hm]
      have written := write_eq frame a m r
      have fixed := h.fixed
      unfold withFindings compareCounted
      generalize r.write frame a m = w at written ⊢
      generalize r.buffer1 = b, r.buffer2 = b', r.compared = c, r.maxima = x at fixed written
      subst fixed
      generalize w.buffer1 = b, w.buffer2 = b' at written
      subst written
      simp [State.isGross_deviationOf, Bool.or_assoc, List.countP_append, List.countP_cons, Bool.toNat,
        Nat.add_assoc]
    reference := ((compare_reference ..).trans (write_roles ..)).trans h.reference
    compared := fun b => by
      rw [compared, (h.written ha hm).1]
      split
      · exact getElem_set_done h.compared a rfl b
      next later =>
        rw [h.compared b, ite_done done a b _ _ fun hb => ?_]
        rw [hb, State.axisCompared, hm]
        exact if_neg later
    maxima := fun b => by
      rw [h.compared_eq ha hm]
      unfold withFindings compareCounted
      dsimp only
      rw [maxima]
      cases hv : s.deviationOf now frame a with
      | none =>
        dsimp only
        rw [h.maxima b, ite_done done a b _ _ fun hb => by rw [hb, hv]]
      | some v =>
        refine getElem_set_done h.maxima a ?_ b
        rw [unmaxed, hv]
        rfl
    holds := fun d hd => by
      rw [compare_capture, write_capture, h.holds d hd]
      by_cases hf : frame = 0
      · simp only [hf, and_true, if_pos, Option.map_some]
        rw [ofFn_done_set (fun b => ((s.midpointTaken now b).map Prod.snd).or d.sources[b]) _ done a _ (by simp [hm])]
      · simp [hf] }

/-! ## The ends of a frame's midpoints -/

theorem clearRow_capture : (r.clearRow frame).capture = { r.capture with
    frames := r.capture.frames.write frame (Vector.ofFn fun _ => none) } := setCapture_capture ..

theorem clearRow_openFrame : (r.clearRow frame).openFrame = r.openFrame := by
  rw [clearRow, setCapture_eq]

theorem RowWritten.start (h : s.reg.capture.frames.wf = true) :
    RowWritten s now frame [] (s.reg.clearRow frame) where
  wf := by
    rw [clearRow_capture]
    exact Cells.wf_write _ _ _ h
  frames n := by
    rw [clearRow_capture]
    exact (Cells.read_write _ _ _ _ h).trans (by simp)

theorem Recorded.start : Recorded s now frame [] (s.reg.clearRow frame) := by
  have fixed : s.reg.clearRow frame = { s.reg with
      buffer1 := (s.reg.clearRow frame).buffer1, buffer2 := (s.reg.clearRow frame).buffer2 } := setCapture_eq ..
  have compared := congrArg Registration.compared fixed
  have maxima := congrArg Registration.maxima fixed
  exact {
    fixed := by
      rw [compared, maxima]
      simpa [State.findings] using fixed
    reference := setCapture_reference ..
    compared := fun a => by simp [compared]
    maxima := fun a => by simp [maxima]
    holds := fun d hd => by
      rw [clearRow_capture, hd]
      simp }

theorem frameRecorded_capture : (r.frameRecorded frame).capture = { r.capture with
    holds := r.capture.holds.map fun d => { d with framesRecorded := frame + 1 } } := setCapture_capture ..

theorem frameRecorded_eq : r.frameRecorded frame = { r with
    buffer1 := (r.frameRecorded frame).buffer1, buffer2 := (r.frameRecorded frame).buffer2 } := setCapture_eq ..

end Registration
end

end Sys2Proof.Machine
end

section
/-! PROOFS. A closed frame's midpoints at the state, with what a GROSS deviation raises (R156 to R160). -/

namespace Sys2Proof.Machine

/-! ## What a raised cause leaves of the record -/

/-- Registration stands, with its marks and what it is judged by. -/
structure RecordKept (s t : State) : Prop where
  reg : t.reg = s.reg
  marks : t.regMarks = s.regMarks
  store : t.store = s.store
  dispositions : t.sup.dispositions = s.sup.dispositions

namespace RecordKept
variable {s t u : State}

theorem refl (s : State) : RecordKept s s := ⟨rfl, rfl, rfl, rfl⟩

theorem trans (h : RecordKept s t) (k : RecordKept t u) : RecordKept s u :=
  ⟨k.reg.trans h.reg, k.marks.trans h.marks, k.store.trans h.store, k.dispositions.trans h.dispositions⟩

theorem of_tells {n : Nat} (h : Tells n s t) : RecordKept s t where
  reg := congrArg (·.reg) h.fixed
  marks := (congrArg State.regMarks h.fixed :)
  store := congrArg (·.store) h.fixed
  dispositions := congrArg (·.sup.dispositions) h.fixed

theorem offer {e : TxEntry} (he : e.sending = false) (s : State) : RecordKept s (s.offer e) := by
  obtain ⟨q, k, -, told⟩ := State.offer_flushed he s
  exact ⟨congrArg (·.reg) told.fixed, (congrArg State.regMarks told.fixed :), congrArg (·.store) told.fixed,
    congrArg (·.sup.dispositions) told.fixed⟩

theorem ownHaltEvent (code : Byte) (s : State) : RecordKept s (s.ownHaltEvent code) := by
  by_cases hr : s.engine.halt.rampStart = none
  · have recorded : RecordKept s (s.haltRecorded code) := ⟨rfl, rfl, rfl, rfl⟩
    exact State.ownHaltEvent_eq hr code ▸ recorded.trans (offer rfl _)
  · obtain ⟨ramp, hr⟩ := Option.ne_none_iff_exists'.1 hr
    rw [State.ownHaltEvent, hr]
    exact refl s

theorem disarm (s : State) : RecordKept s s.disarm := by
  have noted : RecordKept s (s.offPath.note .disarmed) :=
    ⟨rfl, congrArg (RegMarks.mk · _ _)
      (Vector.getElem_set_ne Note.disarmed.idx.isLt (by decide : 4 < 6) (by decide)), rfl, rfl⟩
  exact noted.trans (of_tells (Tells.disarm s))

theorem haltRig (c : Cause) (s : State) : RecordKept s (s.haltRig c) := by
  unfold State.haltRig
  split
  · exact ownHaltEvent ..
  · exact (of_tells (Tells.offerDecline ..)).trans (disarm _)
  · exact disarm s
  · exact ⟨rfl, rfl, rfl, rfl⟩
  · exact ⟨rfl, rfl, rfl, rfl⟩
  all_goals exact refl s

/-- A cause that does not stop the rig leaves the record but for its latch. -/
theorem raise {c : Cause} (hc : s.sup.disposition c ≠ .stopNow) (a : Option (Fin 4)) (n : Option Nat) :
    RecordKept (s.latch c a n) (s.raise c a n) := by
  cases hk : s.sup.disposition c with
  | warn => exact State.raise_warn a n hk ▸ refl _
  | haltRig => exact State.raise_haltRig a n hk ▸ haltRig ..
  | stopNow => exact absurd hk hc

end RecordKept

/-! ## The frame's midpoints, axis by axis -/

/-- `x` has what registration reads as in `s`, and `ms` are the midpoints of the frame closed at `now`. -/
structure State.HandsMidpoints (s : State) (now : Nat) (ms : Vector (Option Midpoint) 4) (x : State) : Prop
    extends RecordKept s x where
  midpoints : ∀ a : Fin 4, ms[a].map (fun m => (m.value, m.source)) =
    s.axes[a].openCapture.map fun o => ((o.value + s.axes[a].captured now o.source) / 2, o.source)

/-- The midpoint of one axis reaches registration. -/
def State.handMidpoint (ms : Vector (Option Midpoint) 4) (frame : Nat) (t : State) (a : Fin 4) : State :=
  match ms[a] with
  | some m => t.takeMidpoint frame a m
  | none => t

/-- The midpoints of the axes `done` have reached registration, the others not yet. -/
structure State.Taking (s : State) (now frame : Nat) (done : List (Fin 4)) (t : State) : Prop where
  recorded : Registration.Recorded s now frame done t.reg
  store : t.store = s.store
  dispositions : t.sup.dispositions = s.sup.dispositions
  gross : t.latchedCause .grossDeviation = true ↔
    s.latchedCause .grossDeviation = true ∨ ∃ a ∈ done, s.beyond now frame a 4 = true
  grossSet : ∀ a : Fin 4, t.sup.axisSets[5].getLsbD a.val = true ↔
    s.sup.axisSets[5].getLsbD a.val = true ∨ a ∈ done ∧ s.beyond now frame a 4 = true
  truncated : t.sup.notes[4] = s.sup.notes[4]

/-- A pass over the four axes, AXIS_0 first. -/
theorem axisOrder_foldl {P : List (Fin 4) → State → Prop} {f : State → Fin 4 → State} {x : State} (h : P [] x)
    (step : ∀ done a t, a ∉ done → P done t → P (done ++ [a]) (f t a)) : P axisOrder (axisOrder.foldl f x) :=
  step [0, 1, 2] 3 _ (by decide) (step [0, 1] 2 _ (by decide) (step [0] 1 _ (by decide) (step [] 0 _ (by decide) h)))

section
variable {s x t u : State} {now frame : Nat} {ms : Vector (Option Midpoint) 4} {done : List (Fin 4)} {a : Fin 4}

/-- An axis hands nothing, or its midpoint is the one the claims speak of. -/
theorem State.HandsMidpoints.cases (h : s.HandsMidpoints now ms x) (hs : t.store.axisPlays a = s.store.axisPlays a) :
    s.midpointTaken now a = none ∧ t.handMidpoint ms frame a = t ∨
    ∃ m : Midpoint, s.midpointTaken now a = some (m.value, m.source) ∧
      t.handMidpoint ms frame a = t.takeMidpoint frame a m ∧ s.store.axisPlays a = true := by
  have same := h.midpoints a
  unfold State.midpointTaken State.handMidpoint
  rw [← same]
  cases hm : ms[a] with
  | none => simp
  | some m =>
    cases hp : s.store.axisPlays a with
    | false => simp [State.takeMidpoint, hs, hp]
    | true => exact .inr ⟨m, rfl, rfl, rfl⟩

/-- A recorded midpoint, compared; a GROSS deviation is raised (R156, R158). -/
theorem State.takeMidpoint_eq (hf : frame < 8192) (hp : t.store.axisPlays a = true) (m : Midpoint) :
    t.takeMidpoint frame a m =
      let out := (t.reg.write frame a m).compare (t.store.tolerance a) frame a m
      if out.2 then (t.onReg fun _ => out.1).raise .grossDeviation (some a) none else t.onReg fun _ => out.1 := by
  simp [State.takeMidpoint, hp, Config.bufferFrames, Nat.not_le.2 hf]

/-- The marks of a latched GROSS_DEVIATION (R187). -/
theorem State.latch_gross (a : Fin 4) (s : State) : (s.latch .grossDeviation (some a) none).regMarks =
    ⟨s.sup.notes[4], true, s.sup.axisSets[5] ||| 1#4 <<< a.val⟩ := by
  have flag := State.latchedCause_latch .grossDeviation (some a) none s
  have notes := congrArg (fun u : Supervision => u.notes[4])
    (Supervision.latch_eq .grossDeviation (some a) none s.sup)
  have sets := congrArg (fun v : Vector (BitVec 4) 6 => v[5])
    (Supervision.latch_axisSets .grossDeviation (some a) none s.sup)
  have added : (s.sup.addAxis .grossDeviation (some a)).axisSets[5] = s.sup.axisSets[5] ||| 1#4 <<< a.val :=
    Vector.getElem_set_self ..
  rw [State.regMarks, flag]
  exact congrArg₂ (RegMarks.mk · true ·) notes (sets.trans added)

theorem getLsbD_or_axis (v : BitVec 4) (a b : Fin 4) :
    (v ||| 1#4 <<< a.val).getLsbD b.val = true ↔ v.getLsbD b.val = true ∨ b = a := by
  rw [BitVec.getLsbD_or, Bool.or_eq_true]
  refine or_congr_right ?_
  simp [Fin.ext_iff]
  omega

namespace State.Taking

theorem step (h : s.HandsMidpoints now ms x) (hd : s.sup.dispositions[15] ≠ .stopNow) (hf : frame < 8192)
    (ha : a ∉ done) (k : s.Taking now frame done t) :
    s.Taking now frame (done ++ [a]) (t.handMidpoint ms frame a) := by
  rcases h.cases (t := t) (a := a) (frame := frame) (by rw [k.store]) with ⟨none, same⟩ | ⟨m, handed, taken, plays⟩
  · have undeviated : s.beyond now frame a 4 = false := by simp [State.beyond, State.deviationOf, none]
    rw [same]
    exact {
      k with
      recorded := k.recorded.skip none
      gross := by simp [k.gross, or_and_right, exists_or, undeviated]
      grossSet := fun b => by
        rw [k.grossSet b]
        by_cases hb : b = a
        · simp [hb, undeviated]
        · simp [hb] }
  · have compared := k.recorded.compared_eq ha handed
    have next := k.recorded.take ha handed
    rw [taken, State.takeMidpoint_eq hf (by rw [k.store]; exact plays), k.store]
    dsimp only
    rw [compared] at next ⊢
    generalize ((t.reg.write frame a m).compareCounted (s.store.tolerance a) frame a
      (s.deviationOf now frame a)).withFindings s.reg (s.findings now frame (done ++ [a])) = r at next ⊢
    cases hg : s.beyond now frame a 4 with
    | false =>
      exact {
        recorded := next, store := k.store, dispositions := k.dispositions, truncated := k.truncated
        gross := k.gross.trans (by simp [or_and_right, exists_or, hg])
        grossSet := fun b => (k.grossSet b).trans (by
          by_cases hb : b = a
          · simp [hb, hg]
          · simp [hb]) }
    | true =>
      have kept := RecordKept.raise (s := t.onReg fun _ => r) (c := .grossDeviation)
        (by rw [Supervision.disposition]; exact k.dispositions ▸ hd) (some a) none
      have marks := kept.marks.trans (State.latch_gross a _)
      rw [State.regMarks, RegMarks.mk.injEq] at marks
      obtain ⟨truncated, flag, sets⟩ := marks
      exact {
        recorded := kept.reg.symm ▸ next
        store := kept.store.trans k.store
        dispositions := kept.dispositions.trans
          ((congrArg (·.dispositions) (Supervision.latch_eq ..)).trans k.dispositions)
        truncated := truncated.trans k.truncated
        gross := by simp [flag, hg]
        grossSet := fun b => by
          rw [if_pos rfl, sets, getLsbD_or_axis]
          refine (or_congr_left (k.grossSet b)).trans ?_
          by_cases hb : b = a
          · simp [hb, hg]
          · simp [hb] }

/-- Nothing has reached registration yet. -/
theorem start (h : RecordKept s t) : s.Taking now frame [] (t.onReg (.clearRow frame)) where
  recorded := by
    rw [State.onReg_reg, h.reg]
    exact .start
  store := h.store
  dispositions := h.dispositions
  gross := by
    have flag : (t.onReg (.clearRow frame)).latchedCause .grossDeviation = s.latchedCause .grossDeviation :=
      congrArg RegMarks.grossFlag h.marks
    simp [flag]
  grossSet a := by
    have sets := congrArg RegMarks.grossSet h.marks
    simp only [State.regMarks] at sets
    simp [State.onReg, sets]
  truncated := congrArg RegMarks.truncated h.marks

end State.Taking

/-! ## The row of the frame, whatever a GROSS deviation does -/

/-- Cells of the capture buffer, whether it holds a pass, and the axes that the move enables. -/
structure RowKept (s t : State) : Prop where
  frames : t.reg.capture.frames = s.reg.capture.frames
  holds : t.reg.capture.holds.isSome = s.reg.capture.holds.isSome
  openFrame : t.reg.openFrame = s.reg.openFrame
  plays : t.store.axisPlays = s.store.axisPlays

namespace RowKept

theorem trans (h : RowKept s t) (k : RowKept t u) : RowKept s u :=
  ⟨k.frames.trans h.frames, k.holds.trans h.holds, k.openFrame.trans h.openFrame, k.plays.trans h.plays⟩

theorem of_kept (h : RecordKept s t) : RowKept s t := by
  constructor <;> simp only [h.reg, h.store]

theorem of_same (hr : t.reg = s.reg) (hs : t.store = s.store) : RowKept s t := by
  constructor <;> simp only [hr, hs]

theorem enterStopped (s : State) : RowKept s s.enterStopped :=
  of_same (congrArg (·.reg) (Tells.enterNode .stopped (s.onEngine _)).fixed)
    (congrArg (·.store) (Tells.enterNode .stopped (s.onEngine _)).fixed)

/-- A STOPPED pass leaves its cells in the capture buffer (R161, R162). -/
theorem registerStopped (cause : Option HaltCause) (s : State) : RowKept s (s.registerEnd .stopped cause) := by
  have kept (r : Registration) (late : Bool) : (r.passEnded .stopped cause late).capture.frames = r.capture.frames ∧
      (r.passEnded .stopped cause late).capture.holds.isSome = r.capture.holds.isSome ∧
      (r.passEnded .stopped cause late).openFrame = r.openFrame := by
    unfold Registration.passEnded Registration.setCapture Registration.capture
    cases r.captureFirst <;> simp
  obtain ⟨frames, holds, openFrame⟩ := kept s.reg s.engine.halt.late
  exact ⟨frames, holds, openFrame, rfl⟩

theorem abandonLoad (s : State) : RowKept s s.abandonLoad := by
  have discarded (hp : s.store.phase ≠ .valid) : RowKept s (s.onStore MoveStore.discard) :=
    ⟨rfl, rfl, rfl, funext fun a => by
      simp [State.onStore, MoveStore.discard, MoveStore.axisPlays, beq_eq_false_iff_ne.2 hp]⟩
  unfold State.abandonLoad
  split
  next h => exact discarded (by simp [h])
  next h =>
    split
    · exact (discarded (by simp [h])).trans (of_kept (.offer rfl _))
    · exact discarded (by simp [h])
  all_goals exact of_same rfl rfl

theorem stopNow (c : Cause) (s : State) : RowKept s (s.stopNow c) := by
  have stopped : RowKept s s.stopAxes := of_same rfl rfl
  have offered (t : State) {e : TxEntry} (he : e.sending = false) : RowKept t (t.offer e) := of_kept (.offer he t)
  have marked (ramp : Nat) (t : State) : RowKept t (t.onEngine fun e =>
      { e with halt := { e.halt with ownHalt := some ramp } }) := of_same rfl rfl
  have unwatched (t : State) : RowKept t t.endWatch := of_same rfl rfl
  have halted : RowKept s (match s.engine.halt.rampStart with
      | some _ => s.stopAxes
      | none => s.stopAxes.offerHalt s.engine.ownRampStart c.byte) := by
    split
    · exact stopped
    · exact (stopped.trans (marked ..)).trans (offered _ rfl)
  have told {t : State} (h : RowKept s t) :
      RowKept s ((t.registerEnd .stopped (some ⟨c.byte, s.ownNumber⟩)).endWatch).enterStopped :=
    ((h.trans (registerStopped _ t)).trans (unwatched _)).trans (enterStopped _)
  have noted (t : State) : RowKept t (t.note .disarmed) := of_same rfl rfl
  unfold State.stopNow
  split
  · exact told halted
  · exact told halted
  · exact ((stopped.trans (offered _ rfl)).trans (noted _)).trans (enterStopped _)
  · exact ((stopped.trans (offered _ rfl)).trans (noted _)).trans (enterStopped _)
  iterate 5 exact (stopped.trans (offered _ rfl)).trans (enterStopped _)
  · exact ((stopped.trans (offered _ rfl)).trans (enterStopped _)).trans (abandonLoad _)
  · exact stopped
  all_goals exact of_same rfl rfl

theorem raise (c : Cause) (a : Option (Fin 4)) (n : Option Nat) (s : State) : RowKept s (s.raise c a n) := by
  have latched : RowKept s (s.latch c a n) := of_same rfl rfl
  unfold State.raise
  dsimp only
  split
  · exact latched
  · exact latched.trans (of_kept (.haltRig ..))
  · exact latched.trans (stopNow ..)

end RowKept

/-- The row has the midpoints of the axes `done`. -/
structure State.RowTaking (s : State) (now frame : Nat) (done : List (Fin 4)) (t : State) : Prop where
  row : s.reg.capture.frames.wf = true → Registration.RowWritten s now frame done t.reg
  holds : t.reg.capture.holds.isSome = s.reg.capture.holds.isSome
  openFrame : t.reg.openFrame = s.reg.openFrame
  plays : t.store.axisPlays = s.store.axisPlays

namespace State.RowTaking

theorem start (h : RecordKept s t) : s.RowTaking now frame [] (t.onReg (.clearRow frame)) where
  row hw := by
    rw [State.onReg_reg, h.reg]
    exact .start hw
  holds := by rw [State.onReg_reg, h.reg, Registration.clearRow_capture]
  openFrame := by rw [State.onReg_reg, h.reg, Registration.clearRow_openFrame]
  plays := congrArg MoveStore.axisPlays h.store

theorem step (h : s.HandsMidpoints now ms x) (hf : frame < 8192) (k : s.RowTaking now frame done t) :
    s.RowTaking now frame (done ++ [a]) (t.handMidpoint ms frame a) := by
  rcases h.cases (t := t) (a := a) (frame := frame) (by rw [k.plays]) with ⟨none, same⟩ | ⟨m, handed, taken, plays⟩
  · rw [same]
    exact { k with row := fun hw => (k.row hw).skip none }
  · rw [taken, State.takeMidpoint_eq hf (by rw [k.plays]; exact plays)]
    dsimp only
    have compared : s.RowTaking now frame (done ++ [a]) (t.onReg fun _ =>
        ((t.reg.write frame a m).compare (t.store.tolerance a) frame a m).1) := by
      have capture := Registration.compare_capture (t.store.tolerance a) frame a m (t.reg.write frame a m)
      refine ⟨fun hw => ?_, ?_, ?_, k.plays⟩
      · have written := (k.row hw).write handed
        exact ⟨by rw [State.onReg_reg, capture]; exact written.wf,
          fun n => by rw [State.onReg_reg, capture]; exact written.frames n⟩
      · rw [State.onReg_reg, capture, Registration.write_capture, ← k.holds]
        dsimp only
        split <;> simp
      · rw [State.onReg_reg, Registration.compare_fixed, Registration.write_eq]
        exact k.openFrame
    split
    · have raised := RowKept.raise .grossDeviation (some a) Option.none (t.onReg fun _ =>
        ((t.reg.write frame a m).compare (t.store.tolerance a) frame a m).1)
      refine ⟨fun hw => ?_, raised.holds.trans compared.holds, raised.openFrame.trans compared.openFrame,
        raised.plays.trans compared.plays⟩
      have row := compared.row hw
      exact ⟨by rw [raised.frames]; exact row.wf, fun n => by rw [raised.frames]; exact row.frames n⟩
    · exact compared

end State.RowTaking

/-! ## A whole frame -/

theorem State.capture_wf (h : s.cellsWf = true) : s.reg.capture.frames.wf = true := by
  simp only [State.cellsWf, Bool.and_eq_true] at h
  obtain ⟨⟨-, first⟩, second⟩ := h
  exact Registration.capture_frames _ first second

namespace State.HandsMidpoints

theorem handed_iff (h : s.HandsMidpoints now ms x) : (∃ a : Fin 4, s.axes[a].openCapture ≠ none) ↔
    (axisOrder.all fun a => ms[a].isNone) = false := by
  have same (a : Fin 4) : ms[a].isNone = s.axes[a].openCapture.isNone := by
    simpa using congrArg Option.isNone (h.midpoints a)
  simp only [same]
  rw [Bool.eq_false_iff, ne_eq, List.all_eq_true, not_forall]
  refine exists_congr fun a => ?_
  simp [mem_axisOrder]

/-- R156: where no channel holds a frame nothing is handed. -/
theorem unheld (h : s.HandsMidpoints now ms x) (hn : ∀ a : Fin 4, s.axes[a].openCapture = none) :
    x.takeMidpoints ms = x := by
  have all : (axisOrder.all fun a => ms[a].isNone) = true :=
    Bool.not_eq_false _ ▸ fun hf => (h.handed_iff.2 hf).elim fun a ha => ha (hn a)
  unfold State.takeMidpoints
  split
  · rw [if_pos all]
  · rfl

section
variable (h : s.HandsMidpoints now ms x) (hr : s.reg.recording = true) (ho : s.reg.openFrame = some frame)
include h hr ho

/-- R156: a frame that has room in the buffer. -/
theorem fits (hf : frame < 8192) (hs : ∃ a : Fin 4, s.axes[a].openCapture ≠ Option.none) : x.takeMidpoints ms =
    (axisOrder.foldl (State.handMidpoint ms frame) (x.onReg (.clearRow frame))).onReg (.frameRecorded frame) := by
  unfold State.takeMidpoints
  rw [h.reg, hr, ho]
  simp only [h.handed_iff.1 hs, Bool.false_eq_true, if_false, Config.bufferFrames, hf, if_true]
  rfl

theorem taking (hf : frame < 8192) (hs : ∃ a : Fin 4, s.axes[a].openCapture ≠ Option.none)
    (hd : s.sup.dispositions[15] ≠ .stopNow) :
    ∃ t, s.Taking now frame axisOrder t ∧ s.RowTaking now frame axisOrder t ∧
      x.takeMidpoints ms = t.onReg (.frameRecorded frame) :=
  ⟨_, axisOrder_foldl (.start h.toRecordKept) fun _ _ _ ha k => k.step h hd hf ha,
    axisOrder_foldl (.start h.toRecordKept) fun _ _ _ _ k => k.step h hf, h.fits hr ho hf hs⟩

theorem rowTaking (hf : frame < 8192) (hs : ∃ a : Fin 4, s.axes[a].openCapture ≠ Option.none) :
    ∃ t, s.RowTaking now frame axisOrder t ∧ x.takeMidpoints ms = t.onReg (.frameRecorded frame) :=
  ⟨_, axisOrder_foldl (.start h.toRecordKept) fun _ _ _ _ k => k.step h hf, h.fits hr ho hf hs⟩

/-- R156: beyond the buffer's last frame nothing but TRUNCATED is written, and only for an enabled axis. -/
theorem truncated (hf : 8192 ≤ frame) :
    x.takeMidpoints ms = x ∧ (∀ a, s.midpointTaken now a = Option.none) ∨ x.takeMidpoints ms = x.note .truncated := by
  by_cases hs : ∃ a : Fin 4, s.axes[a].openCapture ≠ Option.none
  · have folded : x.takeMidpoints ms = axisOrder.foldl (State.handMidpoint ms frame) x := by
      unfold State.takeMidpoints
      rw [h.reg, hr, ho]
      simp only [h.handed_iff.1 hs, Bool.false_eq_true, if_false, Config.bufferFrames, Nat.not_lt.2 hf]
      rfl
    rw [folded]
    have done := axisOrder_foldl (f := State.handMidpoint ms frame) (x := x) (P := fun done t =>
      t = x ∧ (∀ a ∈ done, s.midpointTaken now a = Option.none) ∨ t = x.note .truncated)
      (.inl ⟨rfl, by simp⟩) fun done a t _ k => ?_
    · exact done.imp_left (And.imp_right fun hn a => hn a (mem_axisOrder a))
    · have store : t.store = s.store := by rcases k with ⟨rfl, -⟩ | rfl <;> exact h.store
      rcases h.cases (t := t) (a := a) (frame := frame) (by rw [store]) with ⟨none, same⟩ | ⟨m, -, taken, plays⟩
      · rw [same]
        refine k.imp_left (And.imp_right fun hn b hb => ?_)
        rcases List.mem_append.1 hb with hb | hb
        · exact hn b hb
        · exact List.mem_singleton.1 hb ▸ none
      · have noted : t.takeMidpoint frame a m = t.note .truncated := by
          simp [State.takeMidpoint, store, plays, Config.bufferFrames, hf]
        rw [taken, noted]
        refine .inr ?_
        rcases k with ⟨rfl, -⟩ | rfl
        · rfl
        · simp [State.note, State.onSup]
  · have closed (a : Fin 4) : s.axes[a].openCapture = Option.none := not_not.1 fun ha => hs ⟨a, ha⟩
    exact .inl ⟨h.unheld closed, fun a => by
      rw [State.midpointTaken, closed a]
      split <;> rfl⟩

end

/-- The findings as the claims list them. -/
theorem findings_eq (s : State) (now frame : Nat) : s.findings now frame axisOrder =
    (List.finRange 4).filterMap fun a => (s.deviationOf now frame a).bind fun v =>
      if s.beyond now frame a 1 then some ⟨frame, a, v, if s.beyond now frame a 4 then .gross else .over⟩
      else Option.none := by
  refine List.filterMap_congr fun a _ => ?_
  unfold State.beyond foundEntry
  rw [MoveStore.tolerance_eq]
  cases s.deviationOf now frame a <;> simp

/-- What registration has taken once every axis has handed its midpoint, as the claims say it. -/
theorem frameTaken (h : s.HandsMidpoints now ms x)
    (hreg : u.reg = { (x.takeMidpoints ms).reg with openFrame := u.reg.openFrame })
    (hmarks : u.regMarks = (x.takeMidpoints ms).regMarks) : s.frameTaken now u := by
  intro frame d hr ho hd hw hs
  have kept := h.marks
  simp only [State.regMarks, RegMarks.mk.injEq] at kept hmarks
  obtain ⟨keptTruncated, keptFlag, keptSet⟩ := kept
  obtain ⟨truncated, flag, set⟩ := hmarks
  rw [truncated, flag, set]
  by_cases late : 8192 ≤ frame
  · have early : ¬ frame < 8192 := Nat.not_lt.2 late
    have reg : (x.takeMidpoints ms).reg = s.reg := by
      rcases h.truncated hr ho late with ⟨same, -⟩ | same <;> rw [same] <;> exact h.reg
    have flagSame : (x.takeMidpoints ms).latchedCause .grossDeviation = s.latchedCause .grossDeviation := by
      rcases h.truncated hr ho late with ⟨same, -⟩ | same <;> rw [same] <;> exact keptFlag
    have setSame : (x.takeMidpoints ms).sup.axisSets[5] = s.sup.axisSets[5] := by
      rcases h.truncated hr ho late with ⟨same, -⟩ | same <;> rw [same] <;> exact keptSet
    refine ⟨fun _ => by rw [hreg, reg], fun ht => absurd ht.1 early, ?_, ?_, ?_, ?_⟩
    · rw [flagSame]
      exact (or_iff_left fun ht => early ht.1.1).symm
    · intro a
      rw [setSame]
      exact (or_iff_left fun ht => early ht.1.1).symm
    · rintro - ⟨a, ha⟩
      rcases h.truncated hr ho late with ⟨-, none⟩ | same
      · exact absurd (none a) ha
      · rw [same]
        exact Vector.getElem_set_self ..
    · rintro (hf | hn)
      · exact absurd hf early
      · rw [h.unheld hn]
        exact keptTruncated
  · have early : frame < 8192 := Nat.not_le.1 late
    by_cases closed : ∃ a : Fin 4, s.axes[a].openCapture ≠ Option.none
    · obtain ⟨t, taking, rows, same⟩ := h.taking hr ho early closed hs
      have recorded := Registration.frameRecorded_eq (r := t.reg) (frame := frame)
      have capture := Registration.frameRecorded_capture (r := t.reg) (frame := frame)
      have fixed := taking.recorded.fixed
      have compared : t.reg.compared = Vector.ofFn (s.axisCompared now frame) := Vector.ext fun i hi => by
        simpa [mem_axisOrder] using taking.recorded.compared ⟨i, hi⟩
      have maxima : t.reg.maxima = Vector.ofFn fun a => match s.deviationOf now frame a with
          | some v => if s.reg.maxima[a].value < v.natAbs then ⟨v.natAbs, some frame⟩ else s.reg.maxima[a]
          | Option.none => s.reg.maxima[a] := Vector.ext fun i hi => by
        simpa [mem_axisOrder] using taking.recorded.maxima ⟨i, hi⟩
      rw [compared, maxima] at fixed
      rw [same] at hreg ⊢
      have buffer : u.reg.capture = (t.reg.frameRecorded frame).capture :=
        (congrArg Registration.capture hreg :)
      refine ⟨fun ht => absurd ⟨early, closed⟩ ht, fun _ => ⟨?_, ?_, ?_, fun n => ?_⟩, ?_, fun a => ?_, ?_, ?_⟩
      · rw [hreg, State.onReg_reg, recorded, fixed, findings_eq]
        rfl
      · exact (congrArg Registration.reference hreg :).trans
          ((Registration.setCapture_reference ..).trans taking.recorded.reference)
      · rw [buffer, capture, taking.recorded.holds d hd]
        simp [mem_axisOrder]
      · rw [buffer, capture, (rows.row (State.capture_wf hw)).frames n]
        simp [mem_axisOrder]
      · exact taking.gross.trans (or_congr_right ⟨fun ⟨a, _, ha⟩ => ⟨⟨early, closed⟩, a, ha⟩,
          fun ⟨_, a, ha⟩ => ⟨a, mem_axisOrder a, ha⟩⟩)
      · exact (taking.grossSet a).trans (or_congr_right ⟨fun ⟨_, ha⟩ => ⟨⟨early, closed⟩, ha⟩,
          fun ⟨_, ha⟩ => ⟨mem_axisOrder a, ha⟩⟩)
      · exact fun hf => absurd early (Nat.not_lt.2 hf)
      · exact fun _ => taking.truncated
    · have none (a : Fin 4) : s.axes[a].openCapture = Option.none := not_not.1 fun ha => closed ⟨a, ha⟩
      rw [h.unheld none] at hreg ⊢
      refine ⟨fun _ => by rw [hreg, h.reg], fun ht => absurd ht.2 closed, ?_, ?_,
        fun hf => absurd early (Nat.not_lt.2 hf),
        fun _ => keptTruncated⟩
      · rw [keptFlag]
        exact (or_iff_left fun ht => closed ht.1.2).symm
      · intro a
        rw [keptSet]
        exact (or_iff_left fun ht => closed ht.1.2).symm

end State.HandsMidpoints

end

end Sys2Proof.Machine
end

section
/-! PROOFS. A falling edge of SHUTTER (R50, R147, R148, R156 to R160; O40). -/

namespace Sys2Proof.Machine

/-! ## What midpoints leave of the state -/

section
variable {s t u x : State} {recorded : Prop} {now frame : Nat} {ms : Vector (Option Midpoint) 4}

namespace TickLasting

/-- The relation that leaves registration out of account. -/
theorem recordAll (h : TickLasting recorded s t) : TickLasting True s t :=
  { h with registered := fun hn => absurd trivial hn }

theorem takeMidpoint (frame : Nat) (a : Fin 4) (m : Midpoint) (s : State) :
    TickLasting True s (s.takeMidpoint frame a m) := by
  have noted : TickLasting True s (s.note .truncated) :=
    { TickLasting.refl (recorded := True) s with
      noted := noted_note .truncated s, registered := fun h => absurd trivial h }
  refine ite (fun _ => .refl s) fun _ => ite (fun _ => noted) fun _ => ?_
  dsimp only
  exact (onReg _ s).trans (ite (fun _ => (raise ..).recordAll) fun _ => .refl _)

theorem takeMidpoints (ms : Vector (Option Midpoint) 4) (s : State) : TickLasting True s (s.takeMidpoints ms) := by
  unfold State.takeMidpoints
  split
  next frame _ _ =>
    refine ite (fun _ => .refl s) fun _ => ?_
    dsimp only
    refine trans (trans ?_ (foldl (fun s a => ?_) axisOrder _)) (ite (fun _ => onReg _ _) fun _ => .refl _)
    · exact ite (fun _ => onReg _ s) fun _ => .refl s
    · split
      · exact takeMidpoint ..
      · exact .refl s
  · exact .refl s

end TickLasting

/-- What handed midpoints write under WARN. -/
structure Marked (s t : State) : Prop where
  fixed : t = { s with
    reg := t.reg
    sup := { s.sup with latched := t.sup.latched, axisSets := t.sup.axisSets, notes := t.sup.notes } }

namespace Marked

theorem refl (s : State) : Marked s s := ⟨rfl⟩

theorem trans (h : Marked s t) (k : Marked t u) : Marked s u := ⟨by
  have hk := k.fixed
  rw [h.fixed] at hk
  exact hk⟩

theorem raise (hd : s.sup.dispositions[15] = .warn) (a : Fin 4) :
    Marked s (s.raise .grossDeviation (some a) none) := by
  rw [State.raise_warn (c := .grossDeviation) (some a) none hd]
  exact ⟨rfl⟩

theorem takeMidpoint (hd : s.sup.dispositions[15] = .warn) (frame : Nat) (a : Fin 4) (m : Midpoint) :
    Marked s (s.takeMidpoint frame a m) := by
  refine RaiseClosed.of_ite (fun _ => refl s) fun _ => RaiseClosed.of_ite (fun _ => ⟨rfl⟩) fun _ => ?_
  dsimp only
  have compared (r : Registration) : Marked s (s.onReg fun _ => r) := ⟨rfl⟩
  exact RaiseClosed.of_ite (fun _ => (compared _).trans (raise (s := s.onReg _) hd a)) fun _ => compared _

theorem takeMidpoints (hd : s.sup.dispositions[15] = .warn) (ms : Vector (Option Midpoint) 4) :
    Marked s (s.takeMidpoints ms) := by
  unfold State.takeMidpoints
  split
  next frame _ _ =>
    refine RaiseClosed.of_ite (fun _ => refl s) fun _ => ?_
    dsimp only
    have disposed {t : State} (h : Marked s t) : t.sup.dispositions[15] = .warn :=
      (congrArg (·.sup.dispositions[15]) h.fixed).trans hd
    have cleared : Marked s (if frame < Config.bufferFrames then s.onReg (.clearRow frame) else s) :=
      RaiseClosed.of_ite (fun _ => ⟨rfl⟩) fun _ => refl s
    refine trans (axisOrder_foldl (P := fun _ t => Marked s t) cleared fun _ a t _ h => h.trans ?_)
      (RaiseClosed.of_ite (fun _ => ⟨rfl⟩) fun _ => refl _)
    split
    · exact takeMidpoint (disposed h) ..
    · exact refl t
  · exact refl s

end Marked

namespace State.HandsMidpoints

theorem openFrame (h : s.HandsMidpoints now ms x) : (x.takeMidpoints ms).reg.openFrame = s.reg.openFrame := by
  cases hr : s.reg.recording with
  | false => rw [State.takeMidpoints_standby (by rw [h.reg, hr]), h.reg]
  | true =>
    cases ho : s.reg.openFrame with
    | none =>
      unfold State.takeMidpoints
      rw [h.reg, hr, ho]
      exact (congrArg (·.openFrame) h.reg).trans ho
    | some frame =>
      by_cases hf : frame < 8192
      · by_cases hs : ∃ a : Fin 4, s.axes[a].openCapture ≠ Option.none
        · obtain ⟨t, taking, same⟩ := h.rowTaking hr ho hf hs
          rw [same, State.onReg_reg, Registration.frameRecorded_eq]
          exact taking.openFrame.trans ho
        · rw [h.unheld fun a => not_not.1 fun ha => hs ⟨a, ha⟩, h.reg, ho]
      · rcases h.truncated hr ho (Nat.not_lt.1 hf) with ⟨same, -⟩ | same <;> rw [same]
        · rw [h.reg, ho]
        · exact (congrArg (·.openFrame) h.reg).trans ho

/-- Midpoints of disabled axes reach nothing in supervision. -/
theorem sup (h : s.HandsMidpoints now ms x) (hn : ∀ a, s.midpointTaken now a = Option.none) :
    (x.takeMidpoints ms).sup = x.sup := by
  unfold State.takeMidpoints
  split
  next frame _ _ =>
    split
    · rfl
    · dsimp only
      have kept (t : State) (f : Registration → Registration) (p : Prop) [Decidable p] :
          (if p then t.onReg f else t).sup = t.sup ∧ (if p then t.onReg f else t).store = t.store := by
        split <;> exact ⟨rfl, rfl⟩
      rw [(kept ..).1]
      have start := kept x (.clearRow frame) (frame < Config.bufferFrames)
      refine (axisOrder_foldl (f := State.handMidpoint ms frame)
        (P := fun _ t => t.sup = x.sup ∧ t.store = x.store) start
        fun _ a t _ k => ?_).1
      rcases h.cases (t := t) (a := a) (frame := frame) (by rw [k.2, h.store]) with ⟨-, same⟩ | ⟨m, some, -, -⟩
      · rw [same]
        exact k
      · simp [hn a] at some
  · rfl

/-- R156: the row that a frame with a midpoint leaves in the capture buffer. -/
theorem row (h : s.HandsMidpoints now ms x) (hr : s.reg.recording = true) (ho : s.reg.openFrame = some frame)
    (hf : frame < 8192) {d : PassDescriptor} (hd : s.reg.capture.holds = some d) (hw : s.cellsWf = true)
    (hs : ∃ a : Fin 4, s.axes[a].openCapture ≠ Option.none) :
    (x.takeMidpoints ms).reg.capture.holds.map PassDescriptor.framesRecorded = some (frame + 1) ∧
    (x.takeMidpoints ms).reg.capture.frames.read frame =
      some (Vector.ofFn fun a => (s.midpointTaken now a).map Prod.fst) := by
  obtain ⟨t, taking, same⟩ := h.rowTaking hr ho hf hs
  have present := taking.holds
  rw [hd, Option.isSome_some] at present
  obtain ⟨d', hd'⟩ := Option.isSome_iff_exists.1 present
  rw [same, State.onReg_reg, Registration.frameRecorded_capture, hd']
  refine ⟨rfl, ?_⟩
  dsimp only
  rw [(taking.row (State.capture_wf hw)).frames frame, if_pos rfl]
  simp [mem_axisOrder]

end State.HandsMidpoints

/-! ## A GROSS deviation under HALT_RIG (R119) -/

/-- A node in RUNNING that holds no ramp start but one of its own HALT at `s`'s tick. -/
structure State.HaltingFrom (s t : State) : Prop where
  running : t.engine.nodeState = .running
  own : t.engine.ownRampStart = s.engine.ownRampStart
  held : t.engine.halt.rampStart = none ∨ t.engine.halt.rampStart = some s.engine.ownRampStart

theorem State.HaltingFrom.ownHaltEvent (h : s.HaltingFrom t) (code : Byte) :
    s.HaltingFrom (t.ownHaltEvent code) ∧
      (t.ownHaltEvent code).engine.halt.rampStart = some s.engine.ownRampStart := by
  have raised := Raised.ownHaltEvent h.running code
  have ramp : (t.ownHaltEvent code).engine.halt.rampStart = some s.engine.ownRampStart := by
    rcases h.held with none | some
    · rw [(State.ownHaltEvent_unhalted none code).1, h.own]
    · rw [State.ownHaltEvent, some]
      exact some
  exact ⟨⟨raised.nodeState.trans h.running, raised.ownRampStart.trans h.own, .inr ramp⟩, ramp⟩

/-- The halts of a frame's midpoints, axis by axis. -/
theorem State.HandsMidpoints.halts (h : s.HandsMidpoints now ms x) (hr : s.reg.recording = true)
    (ho : s.reg.openFrame = some frame) (hf : frame < 8192) (hs : ∃ a : Fin 4, s.axes[a].openCapture ≠ none)
    (hd : s.sup.dispositions[15] = .haltRig) (hx : s.HaltingFrom x) {a : Fin 4}
    (ha : s.beyond now frame a 4 = true) :
    (x.takeMidpoints ms).engine.halt.rampStart = some s.engine.ownRampStart := by
  have unstopped : s.sup.dispositions[15] ≠ .stopNow := by simp [hd]
  have folded := axisOrder_foldl (f := State.handMidpoint ms frame) (x := x.onReg (.clearRow frame))
    (P := fun done t => s.Taking now frame done t ∧ s.HaltingFrom t ∧
      ((∃ b ∈ done, s.beyond now frame b 4 = true) → t.engine.halt.rampStart = some s.engine.ownRampStart))
    ⟨.start h.toRecordKept, ⟨hx.running, hx.own, hx.held⟩, by simp⟩ fun done b t hb ⟨taking, halting, ramp⟩ => ?_
  · rw [h.fits hr ho hf hs]
    exact folded.2.2 ⟨a, mem_axisOrder a, ha⟩
  · refine ⟨taking.step h unstopped hf hb, ?_⟩
    have earlier (hg : s.beyond now frame b 4 = false) (hbs : ∃ c ∈ done ++ [b], s.beyond now frame c 4 = true) :
        t.engine.halt.rampStart = some s.engine.ownRampStart := by
      obtain ⟨c, hc, hcg⟩ := hbs
      rcases List.mem_append.1 hc with hc | hc
      · exact ramp ⟨c, hc, hcg⟩
      · rw [List.mem_singleton.1 hc, hg] at hcg
        exact absurd hcg Bool.false_ne_true
    rcases h.cases (t := t) (a := b) (frame := frame) (by rw [taking.store]) with
      ⟨none, same⟩ | ⟨m, handed, taken, plays⟩
    · rw [same]
      exact ⟨halting, earlier (by simp [State.beyond, State.deviationOf, none])⟩
    · rw [taken, State.takeMidpoint_eq hf (by rw [taking.store]; exact plays), taking.store]
      dsimp only
      rw [taking.recorded.compared_eq hb handed]
      generalize ((t.reg.write frame b m).compareCounted (s.store.tolerance b) frame b
        (s.deviationOf now frame b)).withFindings s.reg (s.findings now frame (done ++ [b])) = r
      cases hg : s.beyond now frame b 4 with
      | false => exact ⟨⟨halting.running, halting.own, halting.held⟩, earlier hg⟩
      | true =>
        have disposition : (t.onReg fun _ => r).sup.disposition .grossDeviation = .haltRig :=
          (congrArg (·[15]) taking.dispositions).trans hd
        have raised : (t.onReg fun _ => r).raise .grossDeviation (some b) Option.none =
            ((t.onReg fun _ => r).latch .grossDeviation (some b) Option.none).ownHaltEvent 15 := by
          rw [State.raise_haltRig (some b) Option.none disposition, State.haltRig]
          simp [State.latch, halting.running, Cause.byte, Cause.idx]
        have latched : s.HaltingFrom ((t.onReg fun _ => r).latch .grossDeviation (some b) Option.none) :=
          ⟨halting.running, halting.own, halting.held⟩
        rw [if_pos rfl, raised]
        exact ⟨(latched.ownHaltEvent 15).1, fun _ => (latched.ownHaltEvent 15).2⟩

/-- A GROSS entry that the frame adds is some axis's deviation beyond four tolerances (R158, R159). -/
theorem State.HandsMidpoints.halts_of_gross (h : s.HandsMidpoints now ms x) (hd : s.sup.dispositions[15] = .haltRig)
    (hx : s.HaltingFrom x) {e : DeviationEntry}
    (he : e ∈ (x.takeMidpoints ms).reg.deviations.drop s.reg.deviations.length) (hg : e.grade = .gross) :
    (x.takeMidpoints ms).engine.halt.rampStart = some s.engine.ownRampStart := by
  have unchanged {r : Registration} (hr : r.deviations = s.reg.deviations) :
      e ∉ r.deviations.drop s.reg.deviations.length := by simp [hr]
  cases hr : s.reg.recording with
  | false =>
    rw [State.takeMidpoints_standby (by rw [h.reg, hr]), h.reg] at he
    exact absurd he (unchanged rfl)
  | true =>
    cases ho : s.reg.openFrame with
    | none =>
      have same : x.takeMidpoints ms = x := by
        unfold State.takeMidpoints
        rw [h.reg, hr, ho]
      rw [same, h.reg] at he
      exact absurd he (unchanged rfl)
    | some frame =>
      by_cases hf : frame < 8192
      · by_cases hs : ∃ a : Fin 4, s.axes[a].openCapture ≠ none
        · obtain ⟨t, taking, -, same⟩ := h.taking hr ho hf hs (by simp [hd])
          have deviations : (x.takeMidpoints ms).reg.deviations = s.reg.deviations ++
              (s.findings now frame axisOrder).take (64 - s.reg.deviations.length) := by
            rw [same, State.onReg_reg, Registration.frameRecorded_eq, taking.recorded.fixed]
          rw [deviations, List.drop_left] at he
          obtain ⟨a, -, found⟩ := List.mem_filterMap.1 (findings_eq s now frame ▸ List.mem_of_mem_take he)
          obtain ⟨v, -, entry⟩ := Option.bind_eq_some_iff.1 found
          refine h.halts hr ho hf hs hd hx (a := a) (by_contra fun few => ?_)
          split at entry
          · obtain rfl := Option.some.inj entry
            exact absurd hg (by simp)
          · simp at entry
        · rw [h.unheld fun a => not_not.1 fun ha => hs ⟨a, ha⟩, h.reg] at he
          exact absurd he (unchanged rfl)
      · have same : (x.takeMidpoints ms).reg = s.reg := by
          rcases h.truncated hr ho (Nat.not_lt.1 hf) with ⟨same, -⟩ | same <;> rw [same] <;> exact h.reg
        rw [same] at he
        exact absurd he (unchanged rfl)

/-! ## The falling edge (R50) -/

/-- The channels with their frames closed. -/
def State.captureClosed (s : State) : State :=
  (s.onClock fun c => { c with closePending := false }).onAxes fun x => { x with openCapture := none }

theorem exec_shutterFall (t : Nat) {s : State} (hp : s.clock.closePending = true) : exec (.shutterFall t) s = .next
    (if s.clock.state.closes then (s.reach t).captureClosed.takeMidpoints ((s.reach t).midpoints true)
     else s.reach t) := by
  show Host.Outcome.next (if s.clock.closePending && s.clock.state.closes then _ else _) = _
  rw [hp]
  rfl

/-- Midpoints that the channels form are those that the claims speak of (R148). -/
theorem State.midpoints_eq (byClose : Bool) (s : State) (a : Fin 4) :
    (s.midpoints byClose)[a] = s.axes[a].openCapture.map fun o =>
      { value := (o.value + s.axes[a].captured s.now o.source) / 2, source := o.source, roll := o.roll
        byClose := byClose } := by
  simp [State.midpoints, AxisChannel.midpoint, AxisChannel.captureValue_eq]

theorem State.framesClose_all (byClose : Bool) (now : Nat) (s : State) : s.framesClose byClose now := by
  intro a o ho
  rw [State.midpoints_eq]
  dsimp only
  rw [ho]
  rfl

theorem State.handsMidpoints_close (t : Nat) (s : State) :
    s.HandsMidpoints (max s.now t) ((s.reach t).midpoints true) (s.reach t).captureClosed where
  reg := rfl
  marks := rfl
  store := rfl
  dispositions := rfl
  midpoints a := by
    rw [State.midpoints_eq, Option.map_map]
    rfl

end

end Sys2Proof.Machine

open Sys2Proof Sys2Proof.Machine

/-- Settles O40: by `State.HandsMidpoints`, the channels' midpoints in registration. -/
theorem fallingEdgeClosesTheFrame : Obligations.FallingEdgeClosesTheFrame := by
  unfold Obligations.FallingEdgeClosesTheFrame
  intro t s hp
  rw [exec_shutterFall t hp]
  refine ⟨fun hs => ?_, fun hc hl => ?_⟩
  · rw [if_neg]
    · rfl
    · rcases hs with hs | hs <;> simp [hs, ClockState.closes]
  · have closes : s.clock.state.closes = true := by cases hs : s.clock.state <;> simp_all [ClockState.closes]
    have hands := s.handsMidpoints_close t
    have lasting := TickLasting.takeMidpoints ((s.reach t).midpoints true) (s.reach t).captureClosed
    have now := lasting.now
    have clock := lasting.clock_of closes
    have openFrame := hands.openFrame
    have taken := hands.frameTaken rfl rfl
    have standby (hr : s.reg.recording = false) := State.takeMidpoints_standby
      (s := (s.reach t).captureClosed) hr ((s.reach t).midpoints true)
    have sup := hands.sup
    have marked (hd : s.sup.dispositions[15] = .warn) := (Marked.takeMidpoints (s := (s.reach t).captureClosed) hd
      ((s.reach t).midpoints true)).fixed
    rw [if_pos closes]
    generalize hu : (s.reach t).captureClosed.takeMidpoints ((s.reach t).midpoints true) = u at *
    have time : u.now = max s.now t := now
    refine ⟨u, rfl, time, s.framesClose_all true _, clock, fun a => ?_, fun hr => ?_, openFrame, time ▸ taken,
      fun hn => sup (time ▸ hn), fun hd => ?_, fun hd hn hr => ?_, fun frame d a o hr ho hf hd hw ha => ?_⟩
    · have sensed := lasting.sensed a
      have closed : (s.reach t).captureClosed.axes[a] = { s.axes[a] with openCapture := none } := by
        simp [State.captureClosed, State.reach]
      rw [closed] at sensed
      exact ⟨congrArg (·.openCapture) sensed, congrArg (·.commanded) sensed⟩
    · rw [standby hr]
      exact ⟨rfl, rfl⟩
    · have fixed := marked hd
      have axes : u.axes = (s.reach t).captureClosed.axes := congrArg (·.axes) fixed
      rw [axes, clock, time]
      exact fixed
    · rintro ⟨e, he, gross⟩
      rw [← hu] at he ⊢
      exact hands.halts_of_gross hd ⟨hn, rfl, .inl hr⟩ he gross
    · obtain ⟨frames, read⟩ := hu ▸ hands.row hr ho hf hd hw ⟨a, ha ▸ Option.some_ne_none o⟩
      refine ⟨frames, _, read, ?_⟩
      rw [time]
      exact Vector.getElem_ofFn a.isLt

end

section
/-! PROOFS. A counted mark under any dispositions: the OPEN at the channels, the frame in registration, and the
clock (R45, R47, R50, R147, R148, R155). -/

namespace Sys2Proof.Machine

/-! ## The stages of a counted mark -/

/-- The channels with the new frame open, the roll count at the mark. -/
def State.captureOpened (origin : FrameOrigin) (rollHigh : Bool) (s : State) : State :=
  (s.onClock fun c => { c with
    roll := nextRoll origin rollHigh c.roll, tickIndex := none, closePending := origin == .real }).onAxes
    (.openFrame s.now (nextRoll origin rollHigh s.clock.roll))

/-- The mark's OPEN handed, and the frame before it taken. -/
def State.markOpened (origin : FrameOrigin) (rollHigh : Bool) (s : State) : State :=
  (s.captureOpened origin rollHigh).takeMidpoints (s.midpoints false)

/-- Tick 0 of the frame, where the clock issues ticks. -/
def State.tickZero (s : State) : State := if s.clock.state.ticking then s.issueTick 0 else s

theorem State.countMark_eq (origin : FrameOrigin) (rollHigh : Bool) (adopt : State → State) (s : State) :
    s.countMark origin rollHigh adopt = (adopt (s.markOpened origin rollHigh)).engineMark.tickZero := rfl

/-- What a mark makes of the clock, with what that raises and judges: it begins no pass, and registration and the
roll count stand. -/
structure Adoption (adopt : State → State) : Prop where
  lasting (s : State) : PassLasting False s (adopt s)
  roll (s : State) : (adopt s).clock.roll = s.clock.roll

section
variable {recorded : Prop} {s t u c : State} {origin : FrameOrigin} {rollHigh : Bool} {adopt : State → State}

theorem ClockLasting.roll (h : ClockLasting recorded s t) : t.clock.roll = s.clock.roll := by
  rcases h.clock with h | ⟨h, -⟩ <;> simp only [h, FrameClock.freed]

/-- The engine's part of a mark: the frame advances in a pass, a pass begins, or nothing changes. -/
theorem State.engineMark_cases (s : State) :
    s.engine.nodeState.inPass = true ∧ s.engineMark = s.onReg Registration.frameAdvanced ∨
    s.engine.nodeState.inPass = false ∧ s.engineMark = s ∨
    s.engine.nodeState = .pending ∧ s.clock.state.follows = true ∧ ∃ pass, s.engineMark = s.passStarted pass := by
  cases hp : s.engine.nodeState.inPass with
  | true => exact .inl ⟨rfl, if_pos hp⟩
  | false =>
    unfold State.engineMark
    rw [if_neg (by simp [hp])]
    split
    next pass hn _ =>
      split
      next hf => exact .inr (.inr ⟨hn, hf.2, pass, State.beginPass_eq ..⟩)
      · exact .inr (.inl ⟨rfl, rfl⟩)
    · exact .inr (.inl ⟨rfl, rfl⟩)

/-- What the engine's part leaves. -/
theorem State.engineMark_fixed (s : State) : s.engineMark = { s with
    engine := s.engineMark.engine, line := s.engineMark.line, roster := s.engineMark.roster
    reg := s.engineMark.reg } := by
  rcases s.engineMark_cases with ⟨-, h⟩ | ⟨-, h⟩ | ⟨-, -, pass, h⟩ <;> rw [h] <;> rfl

theorem State.engineMark_clock (s : State) : s.engineMark.clock = s.clock := congrArg (·.clock) s.engineMark_fixed

theorem PassLasting.of_clock {f : FrameClock → FrameClock} (h : PassLasting recorded (s.onClock f) t) :
    PassLasting recorded s t := { h with }

theorem PassLasting.onClock (f : FrameClock → FrameClock) (s : State) : PassLasting recorded s (s.onClock f) :=
  of_clock (f := f) (.refl (s.onClock f))

theorem ClockLasting.tickZero (s : State) : ∃ index, ClockLasting recorded (s.withIndex index) s.tickZero := by
  unfold State.tickZero
  split
  · exact ⟨some 0, .issueTick 0 s⟩
  · exact ⟨s.clock.tickIndex, .refl s⟩

theorem PassLasting.tickZero (s : State) : PassLasting recorded s s.tickZero := by
  obtain ⟨index, h⟩ := ClockLasting.tickZero (recorded := recorded) s
  exact h.toPassLasting.of_clock

theorem PassLasting.catchUp (fuel : Nat) (s : State) : PassLasting recorded s (s.catchUp fuel) := by
  obtain ⟨index, h⟩ := ClockLasting.catchUp (recorded := recorded) fuel s
  exact h.toPassLasting.of_clock

/-! ## The channels' OPEN (R147) -/

theorem AxisChannel.captured_sensed {x y : AxisChannel} (h : x.sensed = y.sensed) (now : Nat)
    (source : CaptureSource) : x.captured now source = y.captured now source := by
  have whole (z : AxisChannel) : z.sensed.captured now source = z.captured now source := rfl
  rw [← whole x, h, whole y]

/-- A frame opened on channels that read alike. -/
theorem AxisChannel.openFrame_sensed {x y : AxisChannel} (h : x.sensed = y.sensed) (now roll : Nat) :
    (x.openFrame now roll).openCapture = (y.openFrame now roll).openCapture := by
  have ratio : x.setup.ratio = y.setup.ratio := congrArg (·.setup.ratio) h
  simp only [AxisChannel.openFrame_capture, AxisChannel.captured_sensed h, ratio]

theorem State.captureOpened_axes (a : Fin 4) : (s.captureOpened origin rollHigh).axes[a] =
    s.axes[a].openFrame s.now (nextRoll origin rollHigh s.clock.roll) := by simp [State.captureOpened]

/-! ## What a counted mark leaves -/

section
variable (ha : Adoption adopt) (s : State)
include ha

/-- From the channels' OPEN on, up to the engine's part of the mark. -/
theorem Adoption.markLasting :
    PassLasting True (s.captureOpened origin rollHigh) (adopt (s.markOpened origin rollHigh)) :=
  (TickLasting.takeMidpoints ..).toPassLasting.trans
    { ha.lasting (s.markOpened origin rollHigh) with registered := fun h => absurd trivial h }

theorem State.countMark_now : (s.countMark origin rollHigh adopt).now = s.now := by
  rw [State.countMark_eq]
  have marked := congrArg (·.now) (adopt (s.markOpened origin rollHigh)).engineMark_fixed
  exact ((PassLasting.tickZero (recorded := True) _).now.trans marked).trans (ha.markLasting s).now

theorem State.countMark_roll :
    (s.countMark origin rollHigh adopt).clock.roll = nextRoll origin rollHigh s.clock.roll := by
  rw [State.countMark_eq]
  obtain ⟨index, last⟩ := ClockLasting.tickZero (recorded := True) (adopt (s.markOpened origin rollHigh)).engineMark
  have first : (s.markOpened origin rollHigh).clock.roll = (s.captureOpened origin rollHigh).clock.roll :=
    (TickLasting.takeMidpoints ..).roll
  have marked : (adopt (s.markOpened origin rollHigh)).engineMark.clock.roll = _ :=
    congrArg (·.roll) (State.engineMark_clock _)
  exact last.roll.trans (marked.trans ((ha.roll _).trans first))

theorem State.countMark_capture (a : Fin 4) : (s.countMark origin rollHigh adopt).axes[a].openCapture =
    (s.axes[a].openFrame s.now (nextRoll origin rollHigh s.clock.roll)).openCapture := by
  rw [State.countMark_eq, ← State.captureOpened_axes]
  have marked := congrArg (·.axes[a].openCapture) (adopt (s.markOpened origin rollHigh)).engineMark_fixed
  have last := congrArg (·.openCapture) ((PassLasting.tickZero (recorded := True)
    (adopt (s.markOpened origin rollHigh)).engineMark).sensed a)
  exact (last.trans marked).trans (congrArg (·.openCapture) ((ha.markLasting s).sensed a))

/-- The stages of a mark in a pass that goes on: nobody but the midpoints and the frame's advance has reached
registration. -/
theorem State.countMark_advances (hn : s.engine.nodeState ≠ .pending)
    (hu : (s.countMark origin rollHigh adopt).engine.nodeState.inPass = true) :
    s.engine.nodeState.inPass = true ∧ (adopt (s.markOpened origin rollHigh)).engine.nodeState.inPass = true ∧
    (s.countMark origin rollHigh adopt).reg = (s.markOpened origin rollHigh).reg.frameAdvanced ∧
    (s.countMark origin rollHigh adopt).regMarks = (s.markOpened origin rollHigh).regMarks := by
  rw [State.countMark_eq] at hu ⊢
  have first := ha.markLasting (origin := origin) (rollHigh := rollHigh) s
  have adopted := ha.lasting (s.markOpened origin rollHigh)
  have last := PassLasting.tickZero (recorded := False) (adopt (s.markOpened origin rollHigh)).engineMark
  have marked := (last.inPass hu).1
  obtain ⟨reg, marks⟩ := last.registered id (.inr hu)
  generalize adopt (s.markOpened origin rollHigh) = z at *
  rcases z.engineMark_cases with ⟨hz, advanced⟩ | ⟨hz, same⟩ | ⟨hz, -⟩
  · obtain ⟨zReg, zMarks⟩ := adopted.registered id (.inr hz)
    refine ⟨(first.inPass hz).1, hz, ?_, ?_⟩
    · rw [reg, advanced, ← zReg]
      rfl
    · rw [marks, advanced, ← zMarks]
      rfl
  · rw [same, hz] at marked
    exact absurd marked Bool.false_ne_true
  · exact absurd (first.pending hz) hn

end

/-- Registration reads at the mark what it read before it. -/
theorem PassLasting.handsMidpoints {n : Nat} (h : PassLasting False { s with now := n } c)
    (hc : c.engine.nodeState.inPass = true) :
    s.HandsMidpoints n (c.midpoints false) (c.captureOpened origin rollHigh) := by
  obtain ⟨reg, marks⟩ := h.registered id (.inr hc)
  exact {
    reg := reg, marks := marks, store := (h.inPass hc).2, dispositions := h.dispositions
    midpoints := fun a => by
      have sensed := h.sensed a
      have same : c.axes[a].openCapture = s.axes[a].openCapture := congrArg (·.openCapture) sensed
      rw [State.midpoints_eq, Option.map_map, same, h.now]
      refine congrArg (Option.map · _) (funext fun o => ?_)
      simp only [Function.comp_apply, AxisChannel.captured_sensed sensed] }

/-- A counted mark, after whatever has lasted up to it, hands its OPEN as the claims say. -/
theorem PassLasting.markOpens {n : Nat} (h : PassLasting False { s with now := n } c) (ha : Adoption adopt) :
    s.markOpens (c.countMark origin rollHigh adopt) := by
  have time : (c.countMark origin rollHigh adopt).now = n := (State.countMark_now ha c).trans h.now
  refine ⟨fun a => ?_, s.framesClose_all false _, fun hs hu => ?_, fun hs hn hr => ?_⟩
  · have sensed := h.sensed a
    rw [State.countMark_capture ha, State.countMark_roll ha, AxisChannel.openFrame_sensed sensed, time, h.now]
    exact AxisChannel.openFrame_capture ..
  · rw [time]
    have running : c.engine.nodeState ≠ .pending := fun hc => by
      have pending : s.engine.nodeState = .pending := h.pending hc
      rw [pending] at hs
      exact absurd hs (by decide)
    obtain ⟨hc, -, reg, marks⟩ := State.countMark_advances ha c running hu
    refine (h.handsMidpoints hc).frameTaken ?_ marks
    rw [reg]
    unfold Registration.frameAdvanced
    split <;> rfl
  · obtain ⟨reg, marks⟩ := h.registered id (.inl hs)
    have out := h.out hs
    have standby : c.reg.recording = false := (congrArg (·.recording) reg).trans hr
    have opened : c.markOpened origin rollHigh = c.captureOpened origin rollHigh :=
      State.takeMidpoints_standby (s := c.captureOpened origin rollHigh) standby _
    obtain ⟨adoptedReg, adoptedMarks⟩ := (ha.lasting (c.markOpened origin rollHigh)).registered id
      (.inl (by rw [opened]; exact out))
    have outside := (ha.markLasting (origin := origin) (rollHigh := rollHigh) c).out out
    have unstarted (hz : (adopt (c.markOpened origin rollHigh)).engine.nodeState = .pending) :
        s.engine.nodeState = .pending := h.pending ((ha.markLasting c).pending hz)
    have marked : (adopt (c.markOpened origin rollHigh)).engineMark = adopt (c.markOpened origin rollHigh) := by
      rcases (adopt (c.markOpened origin rollHigh)).engineMark_cases with ⟨hz, -⟩ | ⟨-, same⟩ | ⟨hz, -⟩
      · rw [outside] at hz
        exact absurd hz Bool.false_ne_true
      · exact same
      · exact absurd (unstarted hz) hn
    obtain ⟨lastReg, lastMarks⟩ := (PassLasting.tickZero (recorded := False)
      (adopt (c.markOpened origin rollHigh))).registered id (.inl outside)
    have allMarks : (c.countMark origin rollHigh adopt).regMarks = s.regMarks := by
      rw [State.countMark_eq, marked, lastMarks, adoptedMarks, opened]
      exact marks
    simp only [State.regMarks, RegMarks.mk.injEq] at allMarks
    obtain ⟨truncated, gross, -⟩ := allMarks
    refine ⟨?_, truncated, gross⟩
    rw [State.countMark_eq, marked, lastReg, adoptedReg, opened]
    exact reg

/-- The pool stands, and no latch is lost. -/
theorem Adoption.countMark_pool (ha : Adoption adopt) (s : State) :
    (s.countMark origin rollHigh adopt).store.pool = s.store.pool := by
  rw [State.countMark_eq]
  have marked := congrArg (·.store.pool) (adopt (s.markOpened origin rollHigh)).engineMark_fixed
  exact ((PassLasting.tickZero (recorded := True) _).pool.trans marked).trans (ha.markLasting s).pool

end

end Sys2Proof.Machine
end

section
/-! PROOFS. What marks make of the clock, the first mark in FREE and the timeout of ACQUIRING (R35, R37; O32), and
a tracking failure (R39; O36). -/

namespace Sys2Proof.Machine

section
variable {recorded : Prop} {s t c : State} {origin : FrameOrigin} {rollHigh : Bool} {adopt adopt' : State → State}

/-! ## Adoptions -/

theorem TickLasting.endPulses (s : State) : TickLasting recorded s s.endPulses := of_fixed rfl rfl

namespace Adoption

theorem comp (h : Adoption adopt) (h' : Adoption adopt') : Adoption fun s => adopt' (adopt s) where
  lasting s := (h.lasting s).trans (h'.lasting _)
  roll s := (h'.roll _).trans (h.roll s)

/-- A change of the clock but for its roll count. -/
theorem onClock {f : FrameClock → FrameClock} (hf : ∀ c, (f c).roll = c.roll) : Adoption (State.onClock f) where
  lasting s := .onClock f s
  roll s := hf s.clock

theorem of_ticks (h : ∀ s, TickLasting False s (adopt s)) : Adoption adopt where
  lasting s := (h s).toPassLasting
  roll s := (h s).roll

theorem judgeArm : Adoption State.judgeArm := of_ticks fun s => .judgeArm s

theorem endPulses : Adoption State.endPulses := of_ticks fun s => .endPulses s

theorem enterFree : Adoption State.enterFree := comp (adopt := State.onClock _) (onClock fun _ => rfl) endPulses

theorem enterAcquiring {f : FrameClock → FrameClock} (hf : ∀ c, (f c).roll = c.roll) :
    Adoption (State.enterAcquiring f) :=
  ((onClock (f := fun c => { f c with state := .acquiring }) hf).comp endPulses).comp judgeArm

end Adoption

/-! ## The clock at a mark -/

/-- Where a CLOSE is handed, midpoints leave the clock. -/
theorem State.markOpened_clock (h : s.clock.state.closes = true) : (s.markOpened origin rollHigh).clock =
    { s.clock with
      roll := nextRoll origin rollHigh s.clock.roll, tickIndex := none, closePending := origin == .real } :=
  (TickLasting.takeMidpoints (s.midpoints false) (s.captureOpened origin rollHigh)).clock_of h

theorem nextRoll_real (rollHigh : Bool) (roll : Nat) :
    nextRoll .real rollHigh roll = if rollHigh then 0 else min 1048575 (roll + 1) := by
  simp [nextRoll, Config.rollTop]

theorem nextRoll_of_ne {origin : FrameOrigin} (h : origin ≠ .real) (rollHigh : Bool) (roll : Nat) :
    nextRoll origin rollHigh roll = min 1048575 (roll + 1) := by
  simp [nextRoll, h, Config.rollTop]

/-- A mark after which the clock issues no ticks. -/
theorem State.tickZero_of_not_ticking (h : s.clock.state.ticking = false) : s.tickZero = s := by
  rw [State.tickZero, h]
  rfl

/-- A mark that enters ACQUIRING leaves the clock there. -/
theorem State.countMark_acquiring {f : FrameClock → FrameClock} (h : s.clock.state.closes = true) :
    (s.countMark origin rollHigh (State.enterAcquiring f)).clock = { f { s.clock with
      roll := nextRoll origin rollHigh s.clock.roll, tickIndex := none, closePending := origin == .real } with
      state := .acquiring } := by
  have judged := (TickLasting.judgeArm (recorded := True)
    ((s.markOpened origin rollHigh).onClock fun c => { f c with state := .acquiring }).endPulses).clock_of rfl
  have adopted : (State.enterAcquiring f (s.markOpened origin rollHigh)).clock =
      { f (s.markOpened origin rollHigh).clock with state := .acquiring } := judged
  have marked := State.engineMark_clock (State.enterAcquiring f (s.markOpened origin rollHigh))
  rw [State.countMark_eq, State.tickZero_of_not_ticking (by rw [marked, adopted]; rfl), marked, adopted,
    State.markOpened_clock h]

/-- What was noted before a mark is noted after it. -/
theorem State.countMark_noted (ha : Adoption adopt) (s : State) (k : Fin 6) (h : s.sup.notes[k] = true) :
    (s.countMark origin rollHigh adopt).sup.notes[k] = true := by
  rw [State.countMark_eq]
  have marked := congrArg (·.sup) (adopt (s.markOpened origin rollHigh)).engineMark_fixed
  refine (PassLasting.tickZero (recorded := True) _).noted k ?_
  rw [marked]
  exact (ha.markLasting s).noted k h

/-! ## Real marks (R33) -/

/-- A real mark restarts the mark-quiet time (R33). -/
def State.markedAt (t : Nat) (s : State) : State := (s.reach t).onClock fun c => { c with lastMark := max s.now t }

theorem exec_realMark (t : Nat) (roll : Bool) (s : State) : exec (.realMark t roll) s = .next
    (match s.clock.state with
     | .free => (s.markedAt t).markFree (max s.now t) roll
     | .acquiring => (s.markedAt t).countMark .real roll (State.adoptAcquired (max s.now t))
     | .locked => (s.markedAt t).markLocked (max s.now t) roll
     | .holdover => (s.markedAt t).markHoldover (max s.now t) roll
     | .coasting => s.markedAt t
     | .localMarks =>
       if s.engine.nodeState.holdsLocal then (s.markedAt t).count .spuriousMarks
       else (s.markedAt t).enterFree.markFree (max s.now t) roll) := rfl

theorem lockable_iff (m : Nat) : lockable m = true ↔ 100000 ≤ m ∧ m ≤ 50000000 := by
  unfold lockable Config.minPeriod Config.maxPeriod
  rw [Bool.and_eq_true, decide_eq_true_iff, decide_eq_true_iff]

/-- A mark in LOCKED that is neither spurious nor tracked (R39). -/
theorem State.markLocked_failed {base p m : Nat} (hp : s.clock.period = some p)
    (ht : s.clock.timingBase = some base) (hm : s.clock.measuringBase = some base) (late : p / 2 ≤ m - base)
    (fails : m - base < 100000 ∨ 50000000 < m - base ∨ p + p / 8 < m - base ∨ m - base + p / 8 < p) (roll : Bool) :
    s.markLocked m roll = s.trackingFailure m (m - base) roll := by
  have untracked : ¬ (lockable (m - base) = true ∧ absDiff (m - base) p ≤ p / 8) := by
    rw [lockable_iff, absDiff]
    omega
  unfold State.markLocked
  rw [hp, ht, hm]
  dsimp only [Option.getD_some]
  rw [if_neg (Nat.not_lt.2 late), if_neg untracked]

/-- The clock that measures anew outside a pass (R39). -/
def unlockedClock (m period : Nat) (c : FrameClock) : FrameClock :=
  { ({ c with previousPeriod := none, consistentRun := 0 } : FrameClock).judgeRun period with
    measuringBase := some m, period := none, tickIndex := none }

theorem unlockedClock_eq (m period : Nat) (c : FrameClock) : unlockedClock m period c = { c with
    measuringBase := some m, period := none, tickIndex := none
    consistentRun := if 100000 ≤ period ∧ period ≤ 50000000 then 1 else 0
    previousPeriod := if 100000 ≤ period ∧ period ≤ 50000000 then some period else none } := by
  simp only [← lockable_iff]
  unfold unlockedClock FrameClock.judgeRun
  cases lockable period <;> rfl

theorem State.unlockOutside_eq (m period : Nat) (roll : Bool) (s : State) : s.unlockOutside m period roll =
    s.countMark .real roll (State.enterAcquiring (unlockedClock m period)) := rfl

/-! ## The timeout (R37) -/

/-- An arm judgement with the clock in FREE leaves the cue lines, and no node ARMED. -/
theorem State.judgeArm_of_free (h : s.clock.state = .free) :
    s.judgeArm.cues = s.cues ∧ s.judgeArm.engine.nodeState ≠ .armed := by
  have cues (t : State) (ht : t.clock.state = .free) : (t.enterNode .idle).cues = t.cues := by
    rw [State.enterNode_cues]
    exact (State.nodeBecomes_cues (by decide) t).2 (by simp [State.clockLeaves, ht])
  have offered : (s.offerDecline s.passStart .notArmed).clock = s.clock ∧
      (s.offerDecline s.passStart .notArmed).cues = s.cues := by simp [State.offerDecline]
  unfold State.judgeArm
  rw [State.armHolds_of_free h]
  cases hn : s.engine.nodeState <;> simp [hn, cues, h, offered]

end

end Sys2Proof.Machine

open Sys2Proof Sys2Proof.Machine

/-- Settles O32: a counted mark with `State.enterAcquiring`, and `State.enterFree` at the timeout. -/
theorem acquiringBeginsAndTimesOut : Obligations.AcquiringBeginsAndTimesOut := by
  unfold Obligations.AcquiringBeginsAndTimesOut
  refine ⟨fun t roll s hs => ?_, fun s base hs hb => ?_⟩
  · have run : exec (.realMark t roll) s = .next ((s.markedAt t).markFree (max s.now t) roll) := by
      rw [exec_realMark]
      simp only [hs]
    have adoption := Adoption.enterAcquiring (f := fun c =>
      { c with measuringBase := some (max s.now t), consistentRun := 0, previousPeriod := none }) fun _ => rfl
    have before : PassLasting False { s with now := max s.now t }
        (s.markedAt t) := .onClock ..
    have clock := State.countMark_acquiring (s := s.markedAt t)
      (origin := .real) (rollHigh := roll) (f := fun c =>
        { c with measuringBase := some (max s.now t), consistentRun := 0, previousPeriod := none })
      (by show s.clock.state.closes = true; rw [hs]; rfl)
    have now := State.countMark_now adoption (origin := .real) (rollHigh := roll)
      (s.markedAt t)
    refine ⟨_, run, now, ?_, before.markOpens adoption, adoption.countMark_pool _, ?_⟩
    · rw [State.markFree, clock, now, nextRoll_real]
      rfl
    · exact (Kept.markFree ..).serial
  · have run : exec .acquireTimeout s = .next (((s.reach (base + 50000000)).onClock fun c =>
        { c with rangeLow := true, rangeHigh := false }).enterFree).judgeArm := by
      refine congrArg Host.Outcome.next ?_
      simp [State.atInstant, FrameClock.timeoutAt, hs, hb, Config.maxPeriod]
    generalize hx : ((s.reach (base + 50000000)).onClock fun c =>
      { c with rangeLow := true, rangeHigh := false }).enterFree = x at run
    have free : x.clock.state = .free := by rw [← hx]; rfl
    obtain ⟨cues, unarmed⟩ := State.judgeArm_of_free free
    have told := Tells.judgeArm x
    refine ⟨_, run, ?_, ?_, unarmed, ?_, fun i hi => ?_⟩
    · exact (congrArg (·.now) told.fixed).trans (by rw [← hx])
    · exact ((TickLasting.judgeArm (recorded := True) x).clock_of (by rw [free]; rfl)).trans (by rw [← hx]; rfl)
    · exact (congrArg (·.axes) told.fixed).trans (by rw [← hx])
    · have pulsing : s.cues[i.val].pulseEnd ≠ none := hi
      rw [cues, ← hx]
      simp [State.enterFree, State.endPulses, CueLine.endPulse, Option.isSome_iff_ne_none, pulsing, State.reach]

/-- Settles O36: MARK_LOST in a pass, and a counted mark with `State.enterAcquiring` outside. -/
theorem trackingFailure : Obligations.TrackingFailure := by
  unfold Obligations.TrackingFailure
  intro t roll s base p hs ht hm hp hd now m late fails
  have run : exec (.realMark t roll) s = .next ((s.markedAt t).trackingFailure now m roll) := by
    rw [exec_realMark, hs]
    exact congrArg Host.Outcome.next (State.markLocked_failed (s := s.markedAt t) hp ht hm late fails roll)
  generalize hq : ((s.markedAt t).onClock
    (.judgeRange m)).note .unlock = q
  have noted : q.sup.notes[1] = true := by
    rw [← hq]
    exact Vector.getElem_set_self ..
  have clock : q.clock = ({ s.clock with lastMark := now } : FrameClock).judgeRange m := by rw [← hq]; rfl
  have node : q.engine.nodeState = s.engine.nodeState := by rw [← hq]; rfl
  have failed : (s.markedAt t).trackingFailure now m roll =
      if q.engine.nodeState.inPass then (q.onClock fun c => { c with state := .coasting }).raise .markLost none none
      else q.unlockOutside now m roll := by
    rw [← hq]
    rfl
  rw [failed] at run
  cases hn : s.engine.nodeState.inPass with
  | true =>
    rw [node, if_pos hn] at run
    have passing : (q.onClock fun c => { c with state := .coasting }).Passing := by
      rw [← hq]
      exact ⟨hn, hd⟩
    have raised := Raised.raise passing (c := .markLost) (by decide) none none
    have lasting := TickLasting.raise_other (recorded := True) (c := .markLost) (by decide) none none
      (q.onClock fun c => { c with state := .coasting })
    have latched := State.latchedCause_raise .markLost none none (q.onClock fun c => { c with state := .coasting })
    have uClock : _ = { q.clock with state := .coasting } := congrArg (·.clock) raised.fixed
    rw [clock] at uClock
    refine ⟨_, run, lasting.noted 1 noted, ?_, ?_, fun _ => ⟨?_, ?_, ?_, ?_, ?_, latched⟩, nofun⟩ <;> rw [uClock]
    · exact decide_eq_true_iff
    · exact decide_eq_true_iff
    · exact hp
    · exact ht
    · rfl
    · rfl
  | false =>
    rw [node, hn, if_neg Bool.false_ne_true] at run
    have closes : q.clock.state.closes = true := by
      rw [clock]
      show s.clock.state.closes = true
      rw [hs]
      rfl
    have adoption := Adoption.enterAcquiring (f := unlockedClock now m) (fun c => by rw [unlockedClock_eq])
    have uClock := State.countMark_acquiring (origin := .real) (rollHigh := roll) (f := unlockedClock now m) closes
    have before : PassLasting False { s with now := now } q := by
      rw [← hq]
      exact ((PassLasting.onClock _ (s.reach t)).trans (.onClock (.judgeRange m) _)).trans
        (TickLasting.note (n := .unlock) (by decide) _).toPassLasting
    rw [← State.unlockOutside_eq, clock, unlockedClock_eq] at uClock
    refine ⟨_, run, State.countMark_noted adoption q 1 noted, ?_, ?_, nofun, fun _ => ⟨?_, ?_, ?_, ?_, ?_,
      before.markOpens adoption, ?_, fun low high => ?_⟩⟩
    · rw [uClock]
      exact decide_eq_true_iff
    · rw [uClock]
      exact decide_eq_true_iff
    · rw [uClock]
    · rw [uClock]
    · rw [uClock]
    · rw [uClock]
    · exact (State.countMark_now adoption q).trans before.now
    · rw [uClock]
      exact nextRoll_real ..
    · have range : 100000 ≤ m ∧ m ≤ 50000000 := ⟨low, high⟩
      rw [uClock]
      simp [range]

end

section
/-! PROOFS. The ticks and the open frame of a pass at a counted mark (R45 to R47, R108, R124, R155). -/

namespace Sys2Proof.Machine

/-! ## The tick count -/

/-- The unissued ticks of the frame. -/
def FrameClock.ticksLeft (c : FrameClock) : Nat :=
  match c.tickIndex with
  | none => 16
  | some j => 15 - j

theorem FrameClock.nextTick_left {c : FrameClock} (hc : c.state.ticking = true) :
    (∀ j, c.nextTick = some j → ({ c with tickIndex := some j } : FrameClock).ticksLeft + 1 = c.ticksLeft) ∧
    (c.nextTick = none → c.ticksLeft = 0) := by
  unfold nextTick ticksLeft
  rw [if_pos hc]
  cases c.tickIndex with
  | none => simp
  | some k =>
    by_cases hk : k < 15
    · simp [hk]
      omega
    · simp [hk]
      omega

/-- A pass under way, its parameters held and its first tick taken. -/
structure State.UnderWay (pass : PassParams) (s : State) : Prop where
  inPass : s.engine.nodeState.inPass = true
  params : s.engine.params = some pass
  ticked : s.engine.ticked = true

section
variable {recorded : Prop} {pass : PassParams} {s t u : State}

/-- A tick issued in a pass that goes on. -/
theorem State.UnderWay.issueTick (h : s.UnderWay pass) (j : Nat)
    (hu : (s.issueTick j).engine.nodeState.inPass = true) :
    (s.issueTick j).UnderWay pass ∧ (s.issueTick j).engine.tick = s.engine.tick + 1 := by
  have work : s.issueTick j = ((s.withIndex (some j)).onCues CueLine.countDown).passWork j s.clock.tickDuration :=
    if_pos h.inPass
  have lasting := TickLasting.passWork (recorded := True) (s := (s.withIndex (some j)).onCues CueLine.countDown)
    h.inPass h.params j s.clock.tickDuration
  rw [← work] at lasting
  obtain ⟨tick, ticked, params⟩ := lasting.tick
  have counted : (Engine.takeTick s.clock.tickDuration s.engine).tick = s.engine.tick + 1 := by
    simp [Engine.takeTick, h.ticked]
  exact ⟨⟨hu, params.trans h.params, ticked⟩, tick.trans counted⟩

/-- The ticks issued before a mark in a pass that outlasts them. -/
theorem State.UnderWay.catchUp (h : s.UnderWay pass) (hc : s.clock.state.ticking = true) {fuel : Nat}
    (hf : s.clock.ticksLeft ≤ fuel) (hu : (s.catchUp fuel).engine.nodeState.inPass = true) :
    (s.catchUp fuel).UnderWay pass ∧ (s.catchUp fuel).engine.tick = s.engine.tick + s.clock.ticksLeft := by
  induction fuel generalizing s with
  | zero =>
    rw [Nat.le_zero.1 hf]
    exact ⟨h, rfl⟩
  | succ fuel ih =>
    unfold State.catchUp at hu ⊢
    split at hu
    next j hj =>
      have issued := (PassLasting.catchUp (recorded := True) fuel (s.issueTick j)).inPass hu
      obtain ⟨under, tick⟩ := h.issueTick j issued.1
      have clock := (ClockLasting.issueTick (recorded := True) j s).stands issued.1
      have left : (s.issueTick j).clock.ticksLeft + 1 = s.clock.ticksLeft := by
        rw [clock]
        exact (FrameClock.nextTick_left hc).1 j hj
      obtain ⟨goes, count⟩ := ih under (by rw [clock]; exact hc) (by omega) hu
      refine ⟨goes, ?_⟩
      rw [count, tick]
      omega
    next hj =>
      have none := (FrameClock.nextTick_left hc).2 hj
      exact ⟨h, by rw [none]; rfl⟩

/-! ## The pass at the full rate, and its halt ramp -/

/-- The pass was RUNNING at tick `b` with no ramp start held, and every tick since has found it short of T_end: a
ramp start held lies two ticks beyond `b` at least. -/
structure FullRate (b : Nat) (pass : PassParams) (s : State) : Prop extends s.UnderWay pass where
  defaults : s.defaults
  from_ : b ≤ s.engine.tick
  ramp : s.engine.halt.rampStart = none ∧ s.engine.nodeState = .running ∨
    ∃ r, s.engine.halt.rampStart = some r ∧ b + 2 ≤ r ∧ (s.engine.tick ≤ r → s.engine.nodeState = .running)
  time : b < s.engine.tick → s.engine.moveTime ≤ s.engine.tick * pass.rate

namespace FullRate
variable {b : Nat}

/-- Nothing of the engine but the halt record has changed. -/
theorem of_ticks (h : FullRate b pass s) (k : TickLasting recorded s t) (hn : t.engine.nodeState = s.engine.nodeState)
    (ht : t.engine.moveTime = s.engine.moveTime) : FullRate b pass t := by
  obtain ⟨tick, ticked, params⟩ := k.tick
  have inPass : t.engine.nodeState.inPass = true := hn ▸ h.inPass
  refine ⟨⟨inPass, params.trans h.params, ticked.trans h.ticked⟩, k.dispositions.trans h.defaults, tick ▸ h.from_, ?_,
    by rw [tick, ht]; exact h.time⟩
  rw [tick, hn]
  rcases k.ramp inPass with same | ⟨none, r, set, ahead⟩
  · rw [same]
    exact h.ramp
  · have := h.from_
    have running := (h.ramp.resolve_right fun ⟨_, held, _⟩ => by simp [none] at held).2
    exact .inr ⟨r, set, by omega, fun _ => running⟩

/-- A pass tick at the full rate or on the ramp, short of T_end. -/
theorem passWork (h : FullRate b pass s) (hl : 16 ≤ pass.haltLength) (hb : s.engine.tick < b + 17)
    (hend : (s.engine.tick + 1) * pass.rate < s.store.tEnd) (index duration : Nat) :
    FullRate b pass (s.passWork index duration) ∧ (s.passWork index duration).engine.tick = s.engine.tick + 1 := by
  have passing : s.Passing := ⟨h.inPass, h.defaults⟩
  have counted : (Engine.takeTick duration s.engine).tick = s.engine.tick + 1 := by simp [Engine.takeTick, h.ticked]
  have lasting := TickLasting.passWork (recorded := True) h.inPass h.params index duration
  obtain ⟨tick, ticked, params⟩ := lasting.tick
  have number : (s.passWork index duration).engine.tick = s.engine.tick + 1 := tick.trans counted
  have started := h.from_
  have goes {w : State} (k : TickGoesOn pass w (s.passWork index duration))
      (hn : w.engine.nodeState.inPass = true)
      (hr : (∀ r, s.engine.halt.rampStart = some r → s.engine.tick + 1 ≤ r) → w.engine.nodeState = .running)
      (ht : w.engine.moveTime ≤ (s.engine.tick + 1) * pass.rate) : FullRate b pass (s.passWork index duration) := by
    have inPass : (s.passWork index duration).engine.nodeState.inPass = true := k.nodeState ▸ hn
    obtain ⟨-, -, -, -, moveTime, -⟩ := k.kept.tick
    refine ⟨⟨inPass, params.trans h.params, ticked⟩, lasting.dispositions.trans h.defaults, by omega, ?_,
      fun _ => by rw [number, moveTime]; exact ht⟩
    rw [k.nodeState, number]
    rcases lasting.ramp inPass with same | ⟨none, r, set, ahead⟩
    · have held : (s.passWork index duration).engine.halt.rampStart = s.engine.halt.rampStart := same
      rw [held]
      rcases h.ramp with ⟨none, -⟩ | ⟨r, some, ahead, -⟩
      · exact .inl ⟨none, hr fun r some => by simp [none] at some⟩
      · refine .inr ⟨r, some, ahead, fun early => hr fun r' some' => ?_⟩
        exact Option.some.inj (some.symm.trans some') ▸ early
    · have unheld : s.engine.halt.rampStart = Option.none := none
      have later : s.engine.tick + 1 + 2 ≤ r := counted ▸ ahead
      exact .inr ⟨r, set, by omega, fun _ => hr fun r' some => by simp [unheld] at some⟩
  by_cases past : ∃ r, s.engine.halt.rampStart = some r ∧ r ≤ s.engine.tick
  · obtain ⟨r, held, early⟩ := past
    have ahead : b + 2 ≤ r := by
      rcases h.ramp with ⟨none, -⟩ | ⟨r', held', ahead, -⟩
      · simp [none] at held
      · exact Option.some.inj (held'.symm.trans held) ▸ ahead
    have time := h.time (by omega)
    have rate : rampRate pass.rate pass.haltLength (s.engine.tick + 1 - r) ≤ pass.rate := by
      unfold rampRate
      exact Nat.div_le_of_le_mul (by rw [Nat.mul_comm pass.haltLength]; exact Nat.mul_le_mul_left _ (Nat.sub_le ..))
    have product : (s.engine.tick + 1) * pass.rate = s.engine.tick * pass.rate + pass.rate := Nat.succ_mul ..
    have short : rampTime s.engine.moveTime pass.rate pass.haltLength (s.engine.tick + 1 - r) s.store.tEnd ≤
        (s.engine.tick + 1) * pass.rate := by
      unfold rampTime
      omega
    obtain ⟨w, worked, -, goesOn⟩ := State.passWork_ramp_spec (duration := duration) passing h.params held
      (by rw [counted]; omega) (by rw [counted]) rfl index
    have node : w.engine.nodeState = .halting := congrArg (·.engine.nodeState) worked.raised.fixed
    have moved : w.engine.moveTime = _ := congrArg (·.engine.moveTime) worked.raised.fixed
    refine ⟨goes (goesOn ?_) (by rw [node]; rfl) (fun later => ?_) (moved.trans_le short), number⟩
    · rintro (long | full) <;> omega
    · have := later r held
      omega
  · have later (r : Nat) (held : s.engine.halt.rampStart = some r) : s.engine.tick + 1 ≤ r :=
      Nat.lt_of_not_le fun early => past ⟨r, held, early⟩
    have running : s.engine.nodeState = .running := by
      rcases h.ramp with ⟨-, running⟩ | ⟨r, held, -, running⟩
      · exact running
      · exact running (Nat.le_of_succ_le (later r held))
    have full : runningTime (Engine.takeTick duration s.engine).tick pass.rate s.store.tEnd =
        (s.engine.tick + 1) * pass.rate := by
      rw [counted]
      exact Nat.min_eq_left hend.le
    obtain ⟨w, worked, -, goesOn⟩ := State.passWork_running_spec passing h.params running
      (fun r held => by rw [counted]; exact later r held) full index
    have node : w.engine.nodeState = .running := (congrArg (·.engine.nodeState) worked.raised.fixed).trans running
    have moved : w.engine.moveTime = _ := congrArg (·.engine.moveTime) worked.raised.fixed
    exact ⟨goes (goesOn hend.ne) (by rw [node]; rfl) (fun _ => node) moved.le, number⟩

theorem issueTick (h : FullRate b pass s) (hl : 16 ≤ pass.haltLength) (hb : s.engine.tick < b + 17)
    (hend : (s.engine.tick + 1) * pass.rate < s.store.tEnd) (j : Nat) : FullRate b pass (s.issueTick j) := by
  have work : s.issueTick j = ((s.withIndex (some j)).onCues CueLine.countDown).passWork j s.clock.tickDuration :=
    if_pos h.inPass
  have counted : FullRate b pass ((s.withIndex (some j)).onCues CueLine.countDown) :=
    ⟨⟨h.inPass, h.params, h.ticked⟩, h.defaults, h.from_, h.ramp, h.time⟩
  exact work ▸ (counted.passWork hl hb hend j s.clock.tickDuration).1

/-- The ticks before a mark leave such a pass going on, where they stay short of T_end. -/
theorem catchUp (h : FullRate b pass s) (hl : 16 ≤ pass.haltLength) (hc : s.clock.state.ticking = true) {fuel : Nat}
    (hf : s.clock.ticksLeft ≤ fuel) (hb : s.engine.tick + s.clock.ticksLeft < b + 17)
    (hend : (s.engine.tick + s.clock.ticksLeft) * pass.rate < s.store.tEnd) : FullRate b pass (s.catchUp fuel) := by
  induction fuel generalizing s with
  | zero => exact h
  | succ fuel ih =>
    unfold State.catchUp
    split
    next j hj =>
      have left := (FrameClock.nextTick_left hc).1 j hj
      have next : (s.engine.tick + 1) * pass.rate ≤ (s.engine.tick + s.clock.ticksLeft) * pass.rate :=
        Nat.mul_le_mul_right _ (by omega)
      have issued := h.issueTick hl (by omega) (by omega) j
      obtain ⟨-, tick⟩ := h.toUnderWay.issueTick j issued.inPass
      have clock := (ClockLasting.issueTick (recorded := True) j s).stands issued.inPass
      have store : (s.issueTick j).store = s.store :=
        ((ClockLasting.issueTick (recorded := True) j s).inPass issued.inPass).2
      have rest : (s.issueTick j).clock.ticksLeft + 1 = s.clock.ticksLeft := by rw [clock]; exact left
      have same : (s.issueTick j).engine.tick + (s.issueTick j).clock.ticksLeft =
          s.engine.tick + s.clock.ticksLeft := by omega
      exact ih issued (by rw [clock]; exact hc) (by omega) (by omega) (by rw [same, store]; exact hend)
    · exact h

end FullRate

/-! ## The mark in the pass -/

/-- A mark's adoption in a pass: no tick is counted, no tick's parameters change, and a pass at the full rate goes
on. -/
structure PassAdoption (adopt : State → State) : Prop extends Adoption adopt where
  tick (s : State) : (adopt s).engine.tick = s.engine.tick ∧ (adopt s).engine.ticked = s.engine.ticked ∧
    (adopt s).engine.params = s.engine.params
  ticking (s : State) : s.clock.state.ticking = true → (adopt s).engine.nodeState.inPass = true →
    (adopt s).clock.state.ticking = true
  fullRate (s : State) (b : Nat) (pass : PassParams) : FullRate b pass s → FullRate b pass (adopt s)

theorem State.HandsMidpoints.recording {now : Nat} {ms : Vector (Option Midpoint) 4} {x : State}
    (h : s.HandsMidpoints now ms x) (hd : s.sup.dispositions[15] ≠ .stopNow) :
    (x.takeMidpoints ms).reg.recording = s.reg.recording := by
  cases hr : s.reg.recording with
  | false => rw [State.takeMidpoints_standby (by rw [h.reg, hr]), h.reg, hr]
  | true =>
    have kept : x.reg.recording = true := (congrArg (·.recording) h.reg).trans hr
    cases ho : s.reg.openFrame with
    | none =>
      unfold State.takeMidpoints
      rw [h.reg, hr, ho]
      exact kept
    | some frame =>
      by_cases hf : frame < 8192
      · by_cases hs : ∃ a : Fin 4, s.axes[a].openCapture ≠ none
        · obtain ⟨t, taking, -, same⟩ := h.taking hr ho hf hs hd
          rw [same, State.onReg_reg, Registration.frameRecorded_eq, taking.recorded.fixed]
          exact hr
        · rw [h.unheld fun a => not_not.1 fun ha => hs ⟨a, ha⟩, kept]
      · rcases h.truncated hr ho (Nat.not_lt.1 hf) with ⟨same, -⟩ | same <;> rw [same] <;> exact kept

/-- A mark up to its tick 0, in a pass that goes on so far. -/
def State.markAdvanced (origin : FrameOrigin) (rollHigh : Bool) (adopt : State → State) (s : State) : State :=
  (adopt (s.markOpened origin rollHigh)).onReg Registration.frameAdvanced

theorem PassAdoption.countMark {adopt : State → State} (ha : PassAdoption adopt) {origin : FrameOrigin}
    {rollHigh : Bool}    (hc : s.clock.state.ticking = true)
    (hz : (adopt (s.markOpened origin rollHigh)).engine.nodeState.inPass = true) :
    s.countMark origin rollHigh adopt = (s.markAdvanced origin rollHigh adopt).issueTick 0 ∧
    (s.UnderWay pass → (s.markAdvanced origin rollHigh adopt).UnderWay pass) ∧
    (s.markAdvanced origin rollHigh adopt).engine.tick = s.engine.tick ∧
    (s.markAdvanced origin rollHigh adopt).store = s.store := by
  have read := TickLasting.takeMidpoints (s.midpoints false) (s.captureOpened origin rollHigh)
  obtain ⟨hy, store⟩ := (ha.lasting _).inPass hz
  have clock : (s.markOpened origin rollHigh).clock.state.ticking = true := by
    rw [show (s.markOpened origin rollHigh).clock = _ from read.stands hy]
    exact hc
  have marked : (adopt (s.markOpened origin rollHigh)).engineMark = s.markAdvanced origin rollHigh adopt := if_pos hz
  obtain ⟨tick, ticked, params⟩ := ha.tick (s.markOpened origin rollHigh)
  obtain ⟨readTick, readTicked, readParams⟩ := read.tick
  refine ⟨?_, fun h => ⟨hz, (params.trans readParams).trans h.params, (ticked.trans readTicked).trans h.ticked⟩,
    tick.trans readTick, store.trans (read.inPass hy).2⟩
  rw [State.countMark_eq, marked]
  exact if_pos (ha.ticking _ clock hz)

theorem State.frameTurned_iff : s.frameTurned u ↔ ∀ pass : PassParams, s.engine.nodeState.inPass = true →
    s.engine.params = some pass → s.engine.ticked = true →
    (u.engine.nodeState.inPass = true → u.engine.tick = s.engine.tick + s.clock.ticksLeft + 1 ∧
      (s.reg.recording = true → u.reg.openFrame = s.reg.openFrame.map (· + 1)) ∧
      (s.reg.recording = false → u.reg.openFrame = s.reg.openFrame)) ∧
    (s.engine.nodeState = .running → s.engine.halt.rampStart = none → 16 ≤ pass.haltLength →
      (s.engine.tick + s.clock.ticksLeft + 1) * pass.rate < s.store.tEnd → u.engine.nodeState.inPass = true) :=
  Iff.rfl

/-- The claims' `frameTurned`, for a mark that comes with the clock `k` issuing ticks. -/
theorem PassAdoption.frameTurned {adopt : State → State} (ha : PassAdoption adopt) (hd : s.defaults) (n : Nat)
    {k : FrameClock} (hk : k.state.ticking = true) (hi : k.tickIndex = s.clock.tickIndex) (origin : FrameOrigin)
    (rollHigh : Bool) :
    s.frameTurned ((({ s with now := n, clock := k } : State).catchUp 16).countMark origin rollHigh adopt) := by
  refine State.frameTurned_iff.2 fun pass hs hp ht => ?_
  have left : k.ticksLeft = s.clock.ticksLeft := by rw [FrameClock.ticksLeft, hi, FrameClock.ticksLeft]
  have few : ({ s with now := n, clock := k } : State).clock.ticksLeft ≤ 16 := by
    show k.ticksLeft ≤ 16
    unfold FrameClock.ticksLeft
    split <;> omega
  rw [← left]
  have clock : ({ s with now := n, clock := k } : State).clock.state.ticking = true := hk
  have under : ({ s with now := n, clock := k } : State).UnderWay pass := ⟨hs, hp, ht⟩
  have lasting : PassLasting False { s with now := n } (({ s with now := n, clock := k } : State).catchUp 16) :=
    (PassLasting.catchUp 16 _).of_clock (s := { s with now := n }) (f := fun _ => k)
  obtain ⟨index, ticks⟩ := ClockLasting.catchUp (recorded := True) 16 ({ s with now := n, clock := k } : State)
  have unstarted : (({ s with now := n, clock := k } : State).catchUp 16).engine.nodeState ≠ .pending := fun hc => by
    have pending : s.engine.nodeState = .pending := lasting.pending hc
    rw [pending] at hs
    exact absurd hs (by decide)
  have counts := fun hc => under.catchUp clock few hc
  have rate (h : FullRate s.engine.tick pass { s with now := n, clock := k }) := h.catchUp (fuel := 16)
  generalize ({ s with now := n, clock := k } : State).catchUp 16 = c at *
  have ticking (hc : c.engine.nodeState.inPass = true) : c.clock.state.ticking = true := by
    rw [ticks.stands hc]
    exact hk
  refine ⟨fun hu => ?_, fun hn hr hl hend => ?_⟩
  · obtain ⟨hc, hz, reg, -⟩ := State.countMark_advances ha.toAdoption c unstarted hu
    obtain ⟨cUnder, cTick⟩ := counts hc
    obtain ⟨run, advanced, tick, -⟩ := ha.countMark (pass := pass) (ticking hc) hz
    have hands := lasting.handsMidpoints (s := s) (origin := origin) (rollHigh := rollHigh) hc
    have openFrame : (c.markOpened origin rollHigh).reg.openFrame = s.reg.openFrame := hands.openFrame
    have recording : (c.markOpened origin rollHigh).reg.recording = s.reg.recording :=
      hands.recording (by rw [hd]; decide)
    rw [run] at hu
    have last := ((advanced cUnder).issueTick 0 hu).2
    rw [← run, tick, cTick] at last
    refine ⟨last, fun hr => ?_, fun hr => ?_⟩ <;> rw [reg, Registration.frameAdvanced, recording, hr]
    · exact congrArg (Option.map (· + 1)) openFrame
    · exact openFrame
  · have product : (s.engine.tick + k.ticksLeft + 1) * pass.rate =
        (s.engine.tick + k.ticksLeft) * pass.rate + pass.rate := Nat.succ_mul ..
    have shorter : (s.engine.tick + k.ticksLeft) * pass.rate < s.store.tEnd := by omega
    have caught := rate ⟨under, hd, le_rfl, .inl ⟨hr, hn⟩, fun h => absurd h (lt_irrefl _)⟩ hl clock few
      (by show s.engine.tick + k.ticksLeft < _; exact Nat.add_lt_add_left (Nat.lt_succ_of_le few) _) shorter
    obtain ⟨cUnder, cTick⟩ := counts caught.inPass
    have exposed := Exposed.takeMidpoints (s := c.captureOpened origin rollHigh) caught.defaults (c.midpoints false)
    have opened : FullRate s.engine.tick pass (c.markOpened origin rollHigh) := by
      have first : FullRate s.engine.tick pass (c.captureOpened origin rollHigh) :=
        ⟨⟨caught.inPass, caught.params, caught.ticked⟩, caught.defaults, caught.from_, caught.ramp, caught.time⟩
      exact first.of_ticks (.takeMidpoints ..) (congrArg (·.engine.nodeState) exposed.fixed)
        (congrArg (·.engine.moveTime) exposed.fixed)
    have adopted := ha.fullRate _ _ _ opened
    obtain ⟨run, -, tick, store⟩ := ha.countMark (pass := pass) (ticking caught.inPass) adopted.inPass
    have advanced : FullRate s.engine.tick pass (c.markAdvanced origin rollHigh adopt) :=
      ⟨⟨adopted.inPass, adopted.params, adopted.ticked⟩, adopted.defaults, adopted.from_, adopted.ramp, adopted.time⟩
    have cStore : c.store = s.store := (lasting.inPass caught.inPass).2
    rw [run]
    refine (advanced.issueTick hl ?_ ?_ 0).inPass
    · rw [tick, cTick]
      exact Nat.add_lt_add_left (Nat.lt_succ_of_le few) _
    · rw [tick, cTick, store, cStore]
      exact hend

end

end Sys2Proof.Machine
end

section
/-! PROOFS. Marks of a clock that issues ticks: tracked in LOCKED (O34), taken in HOLDOVER (O37) and synthesized. -/

namespace Sys2Proof.Machine

/-! ## Adoptions in a pass -/

section
variable {recorded : Prop} {b : Nat} {pass : PassParams} {s t c : State} {origin : FrameOrigin} {rollHigh : Bool}
  {adopt adopt' : State → State}

/-- A change outside the engine and the dispositions. -/
theorem FullRate.of_engine (h : FullRate b pass s) (he : t.engine = s.engine)
    (hd : t.sup.dispositions = s.sup.dispositions) : FullRate b pass t :=
  ⟨⟨he ▸ h.inPass, he ▸ h.params, he ▸ h.ticked⟩, hd.trans h.defaults, he ▸ h.from_, he ▸ h.ramp, he ▸ h.time⟩

theorem FullRate.judgeArm_eq (h : FullRate b pass s) : s.judgeArm = s := by
  refine State.judgeArm_of_unjudged fun hn => ?_
  have inPass := h.inPass
  cases hs : s.engine.nodeState <;> simp [hs, NodeState.inPass] at hn inPass

theorem PassLasting.count (k : Counter) (s : State) : PassLasting recorded s (s.count k) :=
  { PassLasting.refl (recorded := recorded) s with latched := fun _ => id }

/-- MARK_LOST takes a pass at the full rate no further than a ramp start of its own. -/
theorem FullRate.raise (h : FullRate b pass s) {cause : Cause} (hc : cause ≠ .grossDeviation)
    (hk : defaultDispositions[cause.idx] ≠ .stopNow) : FullRate b pass (s.raise cause none none) := by
  have raised := Raised.raise ⟨h.inPass, h.defaults⟩ hk none none
  exact h.of_ticks (.raise_other (recorded := True) hc none none s) raised.nodeState
    (congrArg (·.engine.moveTime) raised.fixed)

namespace PassAdoption

theorem comp (h : PassAdoption adopt) (h' : PassAdoption adopt') : PassAdoption fun s => adopt' (adopt s) where
  toAdoption := h.toAdoption.comp h'.toAdoption
  tick s := by
    obtain ⟨tick, ticked, params⟩ := h.tick s
    obtain ⟨tick', ticked', params'⟩ := h'.tick (adopt s)
    exact ⟨tick'.trans tick, ticked'.trans ticked, params'.trans params⟩
  ticking s hs hp := h'.ticking _ (h.ticking s hs ((h'.lasting _).inPass hp).1) hp
  fullRate s b pass hs := h'.fullRate _ b pass (h.fullRate s b pass hs)

/-- A change of the clock but for its roll count, that issues ticks where it did. -/
theorem onClock {f : FrameClock → FrameClock} (hf : ∀ c, (f c).roll = c.roll)
    (ht : ∀ c, c.state.ticking = true → (f c).state.ticking = true) : PassAdoption (State.onClock f) where
  toAdoption := .onClock hf
  tick _ := ⟨rfl, rfl, rfl⟩
  ticking s hs _ := ht s.clock hs
  fullRate _ _ _ h := h.of_engine rfl rfl

theorem judgeArm : PassAdoption State.judgeArm where
  toAdoption := .judgeArm
  tick s := (TickLasting.judgeArm (recorded := True) s).tick
  ticking s hs hp := by
    rw [(TickLasting.judgeArm (recorded := True) s).stands hp]
    exact hs
  fullRate s b pass h := h.judgeArm_eq.symm ▸ h

theorem adoptTracked (m period : Nat) : PassAdoption (State.adoptTracked m period) :=
  onClock (f := fun c => { c.judgeRange period with
    period := some period, timingBase := some m, measuringBase := some m, origin := .real, missedRun := 0 })
    (fun _ => rfl) fun _ h => h

theorem relock (m : Nat) : PassAdoption fun s => (s.relock m .real).judgeArm :=
  comp (adopt := fun s => s.relock m .real) (onClock (fun _ => rfl) fun _ _ => rfl) judgeArm

/-- The mark that the clock makes for itself. -/
theorem ownMark (d : Nat) (origin : FrameOrigin) :
    PassAdoption (State.onClock fun c => { c with timingBase := some d, origin := origin }) :=
  onClock (fun _ => rfl) fun _ h => h

end PassAdoption

/-- The synthesized mark's record, before it is decided whether the marks are lost. -/
def State.synthesized (d : Nat) (s : State) : State :=
  (s.onClock fun c => { c with timingBase := some d, origin := .synthesized, missedRun := c.missedRun + 1 }).count
    .missedMarks

/-- The marks are lost (R42). -/
def State.marksLost (s : State) : State :=
  let t := s.raise .markLost none none
  if t.engine.nodeState.inPass then t.onClock fun c => { c with state := .coasting } else t.enterFree.judgeArm

theorem State.adoptSynthesized_eq (d : Nat) (s : State) : s.adoptSynthesized d =
    if s.clock.missedRun + 1 < 3 then ((s.synthesized d).onClock fun c => { c with state := .holdover }).judgeArm
    else (s.synthesized d).marksLost := rfl

theorem PassAdoption.synthesized (d : Nat) : PassAdoption (State.synthesized d) where
  lasting s := (PassLasting.onClock _ s).trans (.count ..)
  roll _ := rfl
  tick _ := ⟨rfl, rfl, rfl⟩
  ticking _ hs _ := hs
  fullRate _ _ _ h := h.of_engine rfl rfl

theorem State.marksLost_cases (s : State) :
    (s.raise .markLost none none).engine.nodeState.inPass = true ∧
      s.marksLost = (s.raise .markLost none none).onClock (fun c => { c with state := .coasting }) ∨
    (s.raise .markLost none none).engine.nodeState.inPass = false ∧
      s.marksLost = (s.raise .markLost none none).enterFree.judgeArm := by
  unfold State.marksLost
  cases h : (s.raise .markLost none none).engine.nodeState.inPass <;> simp [h]

/-- Lost marks leave the clock in COASTING in a pass, and in FREE outside (R42). -/
theorem State.marksLost_clock (s : State) : s.marksLost.clock.state =
    if s.marksLost.engine.nodeState.inPass then .coasting else .free := by
  rcases s.marksLost_cases with ⟨hp, h⟩ | ⟨hp, h⟩ <;> rw [h]
  · rw [if_pos (show (State.onClock _ _).engine.nodeState.inPass = true from hp)]
    rfl
  · have judged := TickLasting.judgeArm (recorded := True) (s.raise .markLost none none).enterFree
    rw [judged.out hp, judged.clock_of rfl]
    rfl

theorem PassAdoption.marksLost : PassAdoption State.marksLost := by
  have raised (s : State) : TickLasting False s (s.raise .markLost none none) := .raise_other (by decide) ..
  refine ⟨⟨fun s => ?_, fun s => ?_⟩, fun s => ?_, fun s hs hp => ?_, fun s b pass h => ?_⟩
  · exact (raised s).toPassLasting.trans (RaiseClosed.of_ite (fun _ => .onClock ..) fun _ =>
      (Adoption.enterFree.comp .judgeArm).lasting _)
  · rcases s.marksLost_cases with ⟨-, h⟩ | ⟨-, h⟩ <;> rw [h]
    · exact (raised s).roll
    · exact ((Adoption.enterFree.comp .judgeArm).roll _).trans (raised s).roll
  · rcases s.marksLost_cases with ⟨-, h⟩ | ⟨-, h⟩ <;> rw [h]
    · exact (raised s).tick
    · obtain ⟨tick, ticked, params⟩ := (raised s).tick
      obtain ⟨tick', ticked', params'⟩ :=
        (TickLasting.judgeArm (recorded := True) (s.raise .markLost none none).enterFree).tick
      exact ⟨tick'.trans tick, ticked'.trans ticked, params'.trans params⟩
  · rw [s.marksLost_clock, if_pos hp]
    rfl
  · have lost := h.raise (cause := .markLost) (by decide) (by decide)
    rcases s.marksLost_cases with ⟨-, same⟩ | ⟨out, -⟩
    · rw [same]
      exact lost.of_engine rfl rfl
    · rw [lost.inPass] at out
      exact absurd out (by decide)

theorem PassAdoption.ite {p : State → Prop} [DecidablePred p] (h : PassAdoption adopt) (h' : PassAdoption adopt') :
    PassAdoption fun s => if p s then adopt s else adopt' s where
  lasting s := RaiseClosed.of_ite (fun _ => h.lasting s) fun _ => h'.lasting s
  roll s := by split; exacts [h.roll s, h'.roll s]
  tick s := by split; exacts [h.tick s, h'.tick s]
  ticking s := by split; exacts [h.ticking s, h'.ticking s]
  fullRate s b pass := by split; exacts [h.fullRate s b pass, h'.fullRate s b pass]

theorem PassAdoption.holdover (d : Nat) : PassAdoption fun s =>
    ((s.synthesized d).onClock fun c => { c with state := .holdover }).judgeArm :=
  comp (adopt := fun s => (s.synthesized d).onClock fun c => { c with state := .holdover })
    (comp (adopt' := State.onClock _) (synthesized d) (onClock (fun _ => rfl) fun _ _ => rfl)) judgeArm

theorem PassAdoption.adoptSynthesized (d : Nat) : PassAdoption (State.adoptSynthesized d) :=
  ite (p := fun s => s.clock.missedRun + 1 < 3) (holdover d) ((synthesized d).comp marksLost)

/-! ## The clock at a counted mark -/

theorem State.tickZero_clock (hc : s.clock.state.closes = true) (ht : s.clock.state.ticking = true) :
    s.tickZero.clock = { s.clock with tickIndex := some 0 } := by
  rw [State.tickZero, if_pos ht]
  exact (ClockLasting.issueTick (recorded := True) 0 s).clock_of hc

/-- A mark whose adoption leaves the clock following the marks. -/
theorem State.countMark_clock {k : FrameClock} (hk : (adopt (s.markOpened origin rollHigh)).clock = k)
    (hc : k.state.closes = true) (ht : k.state.ticking = true) :
    (s.countMark origin rollHigh adopt).clock = { k with tickIndex := some 0 } := by
  have marked := (State.engineMark_clock (adopt (s.markOpened origin rollHigh))).trans hk
  rw [State.countMark_eq, State.tickZero_clock (by rw [marked]; exact hc) (by rw [marked]; exact ht), marked]

/-- The ticks before a mark leave the clock but for its tick index, in the states in which a CLOSE is handed. -/
theorem State.catchUp_clock (fuel : Nat) (hc : s.clock.state.closes = true) :
    ∃ index, (s.catchUp fuel).clock = { s.clock with tickIndex := index } := by
  obtain ⟨index, h⟩ := ClockLasting.catchUp (recorded := True) fuel s
  exact ⟨index, h.clock_of hc⟩

/-- A real mark too near to the one before it (R38). -/
theorem State.markLocked_spurious {base p m : Nat} (hp : s.clock.period = some p)
    (ht : s.clock.timingBase = some base) (early : m - base < p / 2) (roll : Bool) :
    s.markLocked m roll = s.count .spuriousMarks := by
  unfold State.markLocked
  rw [hp, ht]
  exact if_pos early

theorem State.adoptTracked_clock (m : Nat) {period : Nat} (low : 100000 ≤ period) (high : period ≤ 50000000) :
    (s.adoptTracked m period).clock = { s.clock with
      rangeHigh := false, rangeLow := false, period := some period, timingBase := some m, measuringBase := some m
      origin := .real, missedRun := 0 } := by
  have fast : decide (period < Config.minPeriod) = false := decide_eq_false (Nat.not_lt.2 low)
  have slow : decide (Config.maxPeriod < period) = false := decide_eq_false (Nat.not_lt.2 high)
  unfold State.adoptTracked FrameClock.judgeRange
  rw [fast, slow]
  rfl

/-- The first real mark in HOLDOVER within half a period: the channels re-open their frames (R41, R147). -/
def State.absorbed (m : Nat) (roll : Bool) (s : State) : State :=
  ((s.onClock fun c => if roll then { c with roll := 0 } else c).relock m .absorbed).exposureReopen

theorem State.markHoldover_cases {base p m : Nat} (hp : s.clock.period = some p)
    (ht : s.clock.timingBase = some base) (roll : Bool) : s.markHoldover m roll =
      if m - base < p / 2 then (s.absorbed m roll).judgeArm
      else (s.catchUp 16).countMark .real roll fun s => (s.relock m .real).judgeArm := by
  unfold State.markHoldover
  rw [hp, ht]
  rfl

theorem State.absorbed_clock (m : Nat) (roll : Bool) (s : State) : (s.absorbed m roll).clock = { s.clock with
    roll := if roll then 0 else s.clock.roll, state := .locked, timingBase := some m, measuringBase := some m
    origin := .absorbed, missedRun := 0, closePending := true } := by
  cases roll <;> rfl

theorem State.absorbed_axes (m : Nat) (roll : Bool) (s : State) (a : Fin 4) : (s.absorbed m roll).axes[a] =
    s.axes[a].openFrame s.now (s.absorbed m roll).clock.roll := by
  simp [State.absorbed, State.exposureReopen, AxisChannel.reopenFrame, State.relock]

/-- The arm judgement leaves the clock that a mark in HOLDOVER has locked. -/
theorem State.relockJudged_clock (m : Nat) (s : State) : (s.relock m .real).judgeArm.clock = { s.clock with
    state := .locked, timingBase := some m, measuringBase := some m, origin := .real, missedRun := 0 } :=
  (TickLasting.judgeArm (recorded := True) (s.relock m .real)).clock_of rfl

/-- What the claims say alike of every counted mark that comes at `n` with the clock `k`: the ending frame's ticks
are issued before it. -/
structure State.MarkCounted (n : Nat) (s u : State) : Prop where
  now : u.now = n
  opens : s.markOpens u
  turned : s.defaults → s.frameTurned u

theorem PassAdoption.markCounted (ha : PassAdoption adopt) {x : State}
    (hx : x = { s with now := x.now, clock := x.clock }) (hk : x.clock.state.ticking = true)
    (hi : x.clock.tickIndex = s.clock.tickIndex) (origin : FrameOrigin)
    (rollHigh : Bool) : s.MarkCounted x.now ((x.catchUp 16).countMark origin rollHigh adopt) := by
  have before : PassLasting False { s with now := x.now } (x.catchUp 16) := by
    rw [hx]
    exact (PassLasting.catchUp 16 _).of_clock (s := { s with now := x.now }) (f := fun _ => x.clock)
  refine ⟨(State.countMark_now ha.toAdoption _).trans before.now, before.markOpens ha.toAdoption, fun hd => ?_⟩
  rw [hx]
  exact ha.frameTurned hd x.now hk hi origin rollHigh

end

end Sys2Proof.Machine

open Sys2Proof Sys2Proof.Machine

/-- Settles O34: a spurious mark is counted as such, a tracked one by `State.countMark` after the frame's ticks. -/
theorem lockedClockTracks : Obligations.LockedClockTracks := by
  unfold Obligations.LockedClockTracks
  intro t roll s base p hs ht hm hp now m
  have run : exec (.realMark t roll) s = .next ((s.markedAt t).markLocked (max s.now t) roll) :=
    exec_realMark_locked hs t roll
  refine ⟨fun early => ?_, fun late low high slow fast => ?_⟩
  · rw [run, State.markLocked_spurious (s := s.markedAt t) hp ht
      early]
    rfl
  · rw [State.markLocked_tracked (s := s.markedAt t) hp ht hm late
      low high slow fast] at run
    have counted := (PassAdoption.adoptTracked (max s.now t) (max s.now t - base)).markCounted (s := s)
      (x := s.markedAt t) rfl
      (by show s.clock.state.ticking = true; rw [hs]; rfl) rfl .real roll
    obtain ⟨index, caught⟩ := State.catchUp_clock (s := s.markedAt t)
      16 (by show s.clock.state.closes = true; rw [hs]; rfl)
    refine ⟨_, run, counted.now, ?_, counted.opens, counted.turned⟩
    generalize (s.markedAt t).catchUp 16 = c at *
    have closes : c.clock.state.closes = true := by
      rw [caught]
      show s.clock.state.closes = true
      rw [hs]
      rfl
    have adopted := State.adoptTracked_clock (s := c.markOpened .real roll) (max s.now t) low high
    rw [State.markOpened_clock closes, caught] at adopted
    rw [State.countMark_clock adopted (by show s.clock.state.closes = true; rw [hs]; rfl)
      (by show s.clock.state.ticking = true; rw [hs]; rfl)]
    simp only [← nextRoll_real]
    rfl

/-- Settles O37: `State.absorbed` with an arm judgement, or `State.countMark` after the frame's ticks. -/
theorem holdoverTakesTheMark : Obligations.HoldoverTakesTheMark := by
  unfold Obligations.HoldoverTakesTheMark
  intro t roll s base p hs ht hp now
  have run : exec (.realMark t roll) s = .next ((s.markedAt t).markHoldover (max s.now t) roll) := by
    rw [exec_realMark]
    simp only [hs]
  rw [State.markHoldover_cases (s := s.markedAt t) hp ht] at run
  by_cases early : max s.now t - base < p / 2
  · rw [if_pos early] at run
    have axes := State.absorbed_axes (max s.now t) roll (s.markedAt t)
    have clock := State.absorbed_clock (max s.now t) roll
      (s.markedAt t)
    generalize hv : (s.markedAt t).absorbed (max s.now t) roll = v at *
    have told := Tells.judgeArm v
    have uClock := (TickLasting.judgeArm (recorded := True) v).clock_of (by rw [clock]; rfl)
    have reg : v.judgeArm.reg = s.reg := (congrArg (·.reg) told.fixed).trans (by rw [← hv]; rfl)
    have tick : v.judgeArm.engine.tick = s.engine.tick :=
      (congrArg (·.engine.tick) told.fixed).trans (by rw [← hv]; rfl)
    have time : v.judgeArm.now = max s.now t := (congrArg (·.now) told.fixed).trans (by rw [← hv]; rfl)
    have uAxes : v.judgeArm.axes = v.axes := congrArg (·.axes) told.fixed
    refine ⟨_, run, time, ?_, ?_, ?_, ?_, ?_, ?_, fun a => ?_, fun _ => ⟨?_, ?_, ?_, tick, reg⟩,
      fun late => absurd early (Nat.not_lt.2 late)⟩
    case refine_7 =>
      dsimp only
      rw [uAxes, axes, time, uClock]
      exact AxisChannel.openFrame_capture ..
    all_goals rw [uClock, clock]
    · exact hp
    · rfl
    · rfl
  · rw [if_neg early] at run
    have counted := (PassAdoption.relock (max s.now t)).markCounted (s := s) (x := s.markedAt t) rfl
      (by show s.clock.state.ticking = true; rw [hs]; rfl) rfl .real roll
    obtain ⟨index, caught⟩ := State.catchUp_clock (s := s.markedAt t)
      16 (by show s.clock.state.closes = true; rw [hs]; rfl)
    have clock := State.relockJudged_clock (max s.now t)
      (((s.markedAt t).catchUp 16).markOpened .real roll)
    generalize (s.markedAt t).catchUp 16 = c at *
    rw [State.markOpened_clock (by rw [caught]; show s.clock.state.closes = true; rw [hs]; rfl), caught] at clock
    have uClock := State.countMark_clock (adopt := fun x => (x.relock (max s.now t) .real).judgeArm) clock
      (by rfl) (by rfl)
    refine ⟨_, run, counted.now, ?_, ?_, ?_, ?_, ?_, ?_, counted.opens.1, fun soon => absurd soon early,
      fun _ => ⟨?_, ?_, ?_, counted.opens, counted.turned⟩⟩
    all_goals rw [uClock]
    · exact hp
    · rfl
    · exact nextRoll_real ..

end

section
/-! PROOFS. Synthesized marks (R40, R42; O38). -/

namespace Sys2Proof.Machine

section
variable {recorded : Prop} {s t c : State} {origin : FrameOrigin} {rollHigh : Bool} {adopt : State → State}

/-! ## What follows a mark's adoption -/

/-- From the adoption on, up to the end of the mark's tick 0, supervision loses nothing. -/
theorem State.countMark_sup (origin : FrameOrigin) (rollHigh : Bool) (adopt : State → State) (s : State) :
    (s.countMark origin rollHigh adopt).sup.counter .missedMarks =
      (adopt (s.markOpened origin rollHigh)).sup.counter .missedMarks ∧
    ∀ cause, (adopt (s.markOpened origin rollHigh)).latchedCause cause = true →
      (s.countMark origin rollHigh adopt).latchedCause cause = true := by
  rw [State.countMark_eq]
  have marked := congrArg (·.sup) (adopt (s.markOpened origin rollHigh)).engineMark_fixed
  obtain ⟨index, last⟩ := ClockLasting.tickZero (recorded := True) (adopt (s.markOpened origin rollHigh)).engineMark
  have missed : _ = (adopt (s.markOpened origin rollHigh)).engineMark.sup.counter .missedMarks := last.missed
  exact ⟨missed.trans (congrArg (·.counter .missedMarks) marked), fun cause h => last.latched cause
    ((congrArg (·.latched[cause.idx]) marked).trans h)⟩

theorem State.markOpened_missed (origin : FrameOrigin) (rollHigh : Bool) (s : State) :
    (s.markOpened origin rollHigh).sup.counter .missedMarks = s.sup.counter .missedMarks :=
  (TickLasting.takeMidpoints (s.midpoints false) (s.captureOpened origin rollHigh)).missed

/-- A clock that a mark leaves in COASTING in a pass, and in FREE outside, is there after tick 0 too. -/
theorem State.countMark_lost (hz : (adopt (s.markOpened origin rollHigh)).clock.state =
      if (adopt (s.markOpened origin rollHigh)).engine.nodeState.inPass then .coasting else .free) :
    (s.countMark origin rollHigh adopt).clock.state =
      if (s.countMark origin rollHigh adopt).engine.nodeState.inPass then .coasting else .free := by
  rw [State.countMark_eq]
  generalize adopt (s.markOpened origin rollHigh) = z at *
  cases hp : z.engine.nodeState.inPass with
  | true =>
    have coasting : z.engineMark.clock.state = .coasting := by rw [State.engineMark_clock, hz, if_pos hp]
    have inPass : z.engineMark.engine.nodeState.inPass = true := by
      rw [State.engineMark, if_pos hp]
      exact hp
    obtain ⟨index, last⟩ := ClockLasting.tickZero (recorded := True) z.engineMark
    have iff := last.coasting coasting inPass
    cases hu : z.engineMark.tickZero.engine.nodeState.inPass with
    | true => exact iff.2 hu
    | false =>
      rcases last.clock with same | ⟨freed, -⟩
      · rw [hu] at iff
        exact absurd (iff.1 (same ▸ coasting)) Bool.false_ne_true
      · rw [freed]
        rfl
  | false =>
    have free : z.clock.state = .free := by rw [hz, hp]; rfl
    have marked : z.engineMark = z := by
      rcases z.engineMark_cases with ⟨hn, -⟩ | ⟨-, same⟩ | ⟨-, follows, -⟩
      · rw [hp] at hn
        exact absurd hn Bool.false_ne_true
      · exact same
      · rw [free] at follows
        exact absurd follows (by decide)
    rw [marked, State.tickZero_of_not_ticking (by rw [free]; rfl), hp, free]
    rfl

/-! ## The synthesized mark (R40, R42) -/

theorem State.synthesized_missed (d : Nat) (s : State) :
    (s.synthesized d).sup.counter .missedMarks = min 255 (s.sup.counter .missedMarks + 1) := by
  simp [State.synthesized, State.count, Supervision.counter, Counter.idx, bump8]

theorem State.adoptSynthesized_missed (d : Nat) (s : State) :
    (s.adoptSynthesized d).sup.counter .missedMarks = min 255 (s.sup.counter .missedMarks + 1) := by
  rw [State.adoptSynthesized_eq, ← State.synthesized_missed d]
  have raised := TickLasting.raise_other (recorded := True) (c := .markLost) (by decide) none none (s.synthesized d)
  split
  · exact (TickLasting.judgeArm (recorded := True) ((s.synthesized d).onClock _)).missed
  · rcases (s.synthesized d).marksLost_cases with ⟨-, h⟩ | ⟨-, h⟩ <;> rw [h]
    · exact raised.missed
    · exact (TickLasting.judgeArm (recorded := True) _).missed.trans raised.missed

theorem State.marksLost_latched (s : State) : s.marksLost.latchedCause .markLost = true := by
  have latched := State.latchedCause_raise .markLost none none s
  rcases s.marksLost_cases with ⟨-, h⟩ | ⟨-, h⟩ <;> rw [h]
  · exact latched
  · exact (TickLasting.judgeArm (recorded := True) _).latched _ latched

end

end Sys2Proof.Machine

open Sys2Proof Sys2Proof.Machine

/-- Settles O38: `State.adoptSynthesized` at a counted mark. -/
theorem holdoverDeadline : Obligations.HoldoverDeadline := by
  unfold Obligations.HoldoverDeadline
  intro s base p hs ht hp at'
  have closes : s.clock.state.closes = true := by rcases hs with hs | hs <;> rw [hs] <;> rfl
  have ticking : s.clock.state.ticking = true := by rcases hs with hs | hs <;> rw [hs] <;> rfl
  have run : exec .holdoverDeadline s = .next (((s.reach at').catchUp 16).countMark .synthesized false
      (State.adoptSynthesized at')) := by
    refine congrArg Host.Outcome.next ?_
    rcases hs with hs | hs <;> simp [State.atInstant, FrameClock.holdoverAt, hs, ht, hp, at']
  have ha := PassAdoption.adoptSynthesized at'
  have counted := ha.markCounted (s := s) (x := s.reach at') rfl ticking rfl .synthesized false
  obtain ⟨index, caught⟩ := State.catchUp_clock (s := s.reach at') 16 closes
  obtain ⟨_, lasted⟩ := ClockLasting.catchUp (recorded := True) 16 (s.reach at')
  have missed : ((s.reach at').catchUp 16).sup.counter .missedMarks = s.sup.counter .missedMarks := lasted.missed
  generalize (s.reach at').catchUp 16 = c at *
  obtain ⟨count, latched⟩ := State.countMark_sup .synthesized false (State.adoptSynthesized at') c
  have opened := State.markOpened_clock (s := c) (origin := .synthesized) (rollHigh := false)
    (by rw [caught]; exact closes)
  have run3 : (c.markOpened .synthesized false).clock.missedRun = s.clock.missedRun := by rw [opened, caught]; rfl
  have adopted := State.adoptSynthesized_eq at' (c.markOpened .synthesized false)
  refine ⟨_, run, counted.now, ?_, ?_, counted.opens, counted.turned, fun few => ?_, fun many => ?_⟩
  · rw [State.countMark_roll ha.toAdoption, nextRoll_of_ne (by decide), caught]
    rfl
  · rw [count, State.adoptSynthesized_missed, State.markOpened_missed, missed]
  · rw [run3, if_pos few] at adopted
    have clock := (TickLasting.judgeArm (recorded := True) (((c.markOpened .synthesized false).synthesized
      at').onClock fun c => { c with state := .holdover })).clock_of rfl
    have synthesized : (((c.markOpened .synthesized false).synthesized at').onClock fun c =>
        { c with state := .holdover }).clock = { (c.markOpened .synthesized false).clock with
          timingBase := some at', origin := .synthesized
          missedRun := (c.markOpened .synthesized false).clock.missedRun + 1, state := .holdover } := rfl
    rw [← adopted, synthesized, opened, caught] at clock
    have uClock := State.countMark_clock clock (by rfl) (by rfl)
    refine ⟨?_, ?_, ?_, ?_, ?_, ?_, ?_⟩ <;> rw [uClock]
    all_goals rfl
  · rw [run3, if_neg (Nat.not_lt.2 many)] at adopted
    refine ⟨latched _ (by rw [adopted]; exact State.marksLost_latched _), State.countMark_lost ?_⟩
    rw [adopted]
    exact State.marksLost_clock _

end

section
/-! PROOFS. Marks of a clock of its own, in COASTING and in LOCAL, and the entry into LOCAL (R43, R44; O39). -/

namespace Sys2Proof.Machine

section
variable {s c : State} {origin : FrameOrigin} {rollHigh : Bool} {adopt : State → State}
  {f : FrameClock → FrameClock}

/-! ## The clock at a mark of its own -/

/-- The clock that a mark finds, with the new frame open. -/
def FrameClock.opened (origin : FrameOrigin) (rollHigh : Bool) (k : FrameClock) : FrameClock :=
  { k with roll := nextRoll origin rollHigh k.roll, tickIndex := none, closePending := origin == .real }

/-- Tick 0 of a clock that it does not take to FREE. -/
theorem State.tickZero_clock_of_ne_free (h : s.tickZero.clock.state ≠ .free) (ht : s.clock.state.ticking = true) :
    s.tickZero.clock = { s.clock with tickIndex := some 0 } := by
  rw [State.tickZero, if_pos ht] at h ⊢
  refine (ClockLasting.issueTick (recorded := True) 0 s).clock.resolve_right fun ⟨freed, _⟩ => h ?_
  rw [freed]
  rfl

/-- A mark that the clock makes for itself, and that does not take it to FREE. -/
theorem State.countMark_own (hf : ∀ k, (f k).state = k.state) (ht : c.clock.state.ticking = true)
    (h : (c.countMark origin rollHigh (State.onClock f)).clock.state ≠ .free) :
    (c.countMark origin rollHigh (State.onClock f)).clock =
      { f (c.clock.opened origin rollHigh) with tickIndex := some 0 } := by
  rw [State.countMark_eq] at h ⊢
  have read := TickLasting.takeMidpoints (c.midpoints false) (c.captureOpened origin rollHigh)
  have marked := State.engineMark_clock ((c.markOpened origin rollHigh).onClock f)
  rcases read.clock with same | ⟨freed, -⟩
  · have opened : ((c.markOpened origin rollHigh).onClock f).engineMark.clock = f (c.clock.opened origin rollHigh) :=
      marked.trans (congrArg f same)
    rw [State.tickZero_clock_of_ne_free h (by rw [opened, hf]; exact ht), opened]
  · have free : ((c.markOpened origin rollHigh).onClock f).engineMark.clock.state = .free := by
      rw [marked]
      refine (hf _).trans ?_
      rw [show (c.markOpened origin rollHigh).clock = _ from freed]
      rfl
    rw [State.tickZero_of_not_ticking (by rw [free]; rfl)] at h
    exact absurd free h

/-- A clock in COASTING stays there at a mark of its own that a pass outlasts. -/
theorem State.countMark_coasting (hf : ∀ k, (f k).state = k.state) (hc : c.clock.state = .coasting)
    (hu : (c.countMark origin rollHigh (State.onClock f)).engine.nodeState.inPass = true) :
    (c.countMark origin rollHigh (State.onClock f)).clock.state = .coasting := by
  rw [State.countMark_eq] at hu ⊢
  have read := TickLasting.takeMidpoints (c.midpoints false) (c.captureOpened origin rollHigh)
  have coasts (h : (c.markOpened origin rollHigh).engine.nodeState.inPass = true) :
      ((c.markOpened origin rollHigh).onClock f).clock.state = .coasting := by
    refine (hf _).trans ?_
    rw [show (c.markOpened origin rollHigh).clock = _ from read.stands h]
    exact hc
  have unfollowed : ((c.markOpened origin rollHigh).onClock f).clock.state.follows = false := by
    show (f (c.markOpened origin rollHigh).clock).state.follows = false
    rw [hf]
    rcases read.clock with same | ⟨freed, -⟩
    · rw [show (c.markOpened origin rollHigh).clock = _ from same]
      show c.clock.state.follows = false
      rw [hc]
      rfl
    · rw [show (c.markOpened origin rollHigh).clock = _ from freed]
      rfl
  obtain ⟨index, last⟩ :=
    ClockLasting.tickZero (recorded := True) ((c.markOpened origin rollHigh).onClock f).engineMark
  have inPass : ((c.markOpened origin rollHigh).onClock f).engineMark.engine.nodeState.inPass = true :=
    (last.inPass hu).1
  rw [last.stands hu]
  refine (congrArg (·.state) (State.engineMark_clock _)).trans (coasts ?_)
  rcases ((c.markOpened origin rollHigh).onClock f).engineMark_cases with ⟨hy, -⟩ | ⟨-, same⟩ | ⟨-, follows, -⟩
  · exact hy
  · rw [same] at inPass
    exact inPass
  · rw [unfollowed] at follows
    exact absurd follows Bool.false_ne_true

/-! ## The ticks before the mark -/

/-- The ticks before a mark leave the clock but for its tick index, unless they take it to FREE. -/
theorem State.catchUp_clock_of_ne_free (fuel : Nat) (h : (s.catchUp fuel).clock.state ≠ .free) :
    ∃ index, (s.catchUp fuel).clock = { s.clock with tickIndex := index } := by
  obtain ⟨index, ticks⟩ := ClockLasting.catchUp (recorded := True) fuel s
  refine ⟨index, ticks.clock.resolve_right fun ⟨freed, _⟩ => h ?_⟩
  rw [freed]
  rfl

/-- Ticks that end the pass: what the claims say of a mark that then is not made. -/
theorem State.frameTurned_of_out (hd : s.defaults) (n : Nat) {k : FrameClock} (hk : k.state.ticking = true)
    (hi : k.tickIndex = s.clock.tickIndex)
    (out : (({ s with now := n, clock := k } : State).catchUp 16).engine.nodeState.inPass = false) :
    s.frameTurned (({ s with now := n, clock := k } : State).catchUp 16) := by
  refine State.frameTurned_iff.2 fun pass hs hp ht => ⟨fun hu => ?_, fun hn hr hl hend => ?_⟩
  · rw [out] at hu
    exact absurd hu Bool.false_ne_true
  · have left : k.ticksLeft = s.clock.ticksLeft := by rw [FrameClock.ticksLeft, hi, FrameClock.ticksLeft]
    have few : k.ticksLeft ≤ 16 := by unfold FrameClock.ticksLeft; split <;> omega
    have product : (s.engine.tick + s.clock.ticksLeft + 1) * pass.rate =
        (s.engine.tick + s.clock.ticksLeft) * pass.rate + pass.rate := Nat.succ_mul ..
    have rate : FullRate s.engine.tick pass ({ s with now := n, clock := k } : State) :=
      ⟨⟨hs, hp, ht⟩, hd, le_rfl, .inl ⟨hr, hn⟩, fun h => absurd h (lt_irrefl _)⟩
    refine (rate.catchUp hl hk few ?_ ?_).inPass
    · exact Nat.add_lt_add_left (Nat.lt_succ_of_le few) _
    · show (s.engine.tick + k.ticksLeft) * pass.rate < s.store.tEnd
      rw [left]
      omega

/-! ## The mark that the clock makes for itself (R43, R44) -/

/-- What holds of a clock's own mark alike in COASTING and in LOCAL. -/
theorem State.ownMark_spec {own : ClockState} (hs : s.clock.state = own) (ht : own.ticking = true)
    (origin : FrameOrigin) (ho : origin ≠ .real) (d : Nat) :
    ((s.reach d).ownMark own origin d).now = max s.now d ∧
    ((s.reach d).ownMark own origin d).sup.counter .missedMarks = s.sup.counter .missedMarks ∧
    (s.defaults → s.frameTurned ((s.reach d).ownMark own origin d)) ∧
    (((s.reach d).ownMark own origin d).clock.state = own →
      s.markOpens ((s.reach d).ownMark own origin d) ∧ ((s.reach d).ownMark own origin d).clock = { s.clock with
        timingBase := some d, origin := origin, roll := min 1048575 (s.clock.roll + 1), tickIndex := some 0
        closePending := false }) ∧
    (own = .coasting → ((s.reach d).ownMark own origin d).engine.nodeState.inPass = true →
      ((s.reach d).ownMark own origin d).clock.state = .coasting) := by
  have ticking : (s.reach d).clock.state.ticking = true := by
    show s.clock.state.ticking = true
    rw [hs]
    exact ht
  have real : (origin == .real) = false := beq_false_of_ne ho
  have counted := (PassAdoption.ownMark d origin).markCounted (s := s) (x := s.reach d) rfl ticking rfl origin false
  have out := State.frameTurned_of_out (s := s) (n := max s.now d) (k := s.clock)
  have reached : s.reach d = { s with now := max s.now d, clock := s.clock } := rfl
  have unfree : own ≠ .free := fun h => by rw [h] at ht; exact absurd ht (by decide)
  have clock := State.catchUp_clock_of_ne_free (s := s.reach d) 16
  obtain ⟨index, ticks⟩ := ClockLasting.catchUp (recorded := True) 16 (s.reach d)
  rw [← reached] at out
  have missed : ((s.reach d).catchUp 16).sup.counter .missedMarks = s.sup.counter .missedMarks := ticks.missed
  have time : ((s.reach d).catchUp 16).now = max s.now d := ticks.now
  unfold State.ownMark
  dsimp only
  generalize (s.reach d).catchUp 16 = c at *
  by_cases stays : c.clock.state = own
  · rw [if_pos stays]
    obtain ⟨i, caught⟩ := clock (by rw [stays]; exact unfree)
    have ticks' : c.clock.state.ticking = true := by rw [stays]; exact ht
    refine ⟨counted.now, ?_, counted.turned, fun hu => ⟨counted.opens, ?_⟩, fun hown hu => ?_⟩
    · exact (State.countMark_sup origin false _ c).1.trans ((State.markOpened_missed origin false c).trans missed)
    · rw [State.countMark_own (f := fun c => { c with timingBase := some d, origin := origin }) (fun _ => rfl) ticks'
        (by rw [hu]; exact unfree), caught]
      unfold FrameClock.opened
      rw [real, nextRoll_of_ne ho]
      rfl
    · exact State.countMark_coasting (fun _ => rfl) (stays.trans hown) hu
  · rw [if_neg stays]
    have left : c.engine.nodeState.inPass = false := Bool.eq_false_iff.2 fun hc =>
      stays ((congrArg (·.state) (ticks.stands hc)).trans hs)
    refine ⟨time, missed, fun hd => out hd (hs ▸ ht) rfl left, fun hu => absurd hu stays, fun _ hu => ?_⟩
    rw [left] at hu
    exact absurd hu Bool.false_ne_true

/-! ## The entry into LOCAL (R44) -/

/-- The clock of the first local mark. -/
def State.localClock (s : State) : State := s.onClock fun c => { c with
  state := .localMarks, period := some s.store.localPeriod, timingBase := some s.now, origin := .localMark }

theorem Adoption.adoptLocal : Adoption State.adoptLocal :=
  comp (adopt := State.localClock) ⟨fun _ => .onClock .., fun _ => rfl⟩ judgeArm

/-- Mark F leaves who the participants are. -/
theorem State.engineMark_alone (s : State) :
    s.engineMark.roster.aloneParticipant = s.roster.aloneParticipant := by
  rcases s.engineMark_cases with ⟨-, h⟩ | ⟨-, h⟩ | ⟨-, -, pass, h⟩ <;> rw [h]
  · rfl
  · refine Roster.aloneParticipant_congr (List.ext_getElem? fun i => ?_) rfl rfl
    simp only [State.passStarted, List.getElem?_map, watchOthers_getElem?, Option.map_map]
    refine congrArg (Option.map · _) (funext fun e => ?_)
    simp only [Function.comp_apply]
    split <;> rfl

/-- Conditions that hold keep a clock in LOCAL (R44). -/
theorem ClockLasting.clock_of_localHolds {recorded : Prop} {t : State} (h : ClockLasting recorded s t)
    (hs : s.clock.state = .localMarks) (hl : s.localHolds = true) : t.clock = s.clock := by
  refine h.clock.resolve_right fun ⟨_, left⟩ => ?_
  rcases left with left | ⟨-, left⟩
  · rw [hs] at left
    exact absurd left (by decide)
  · rw [hl] at left
    exact absurd left (by decide)

theorem State.localHolds_iff : s.localHolds = true ↔ s.roster.aloneParticipant = true ∧
    s.store.phase = .valid ∧ s.clock.lastMark + 150000000 ≤ s.now := by
  have quiet : 150000000 ≤ s.now - s.clock.lastMark ↔ s.clock.lastMark + 150000000 ≤ s.now := by omega
  simp only [State.localHolds, Config.markQuietClocks, Bool.and_eq_true, beq_iff_eq, and_assoc, decide_eq_true_eq,
    quiet]

/-- The mark that begins LOCAL, where the conditions hold: nothing it raises takes the clock out of it. -/
theorem State.countMark_local (hf : s.clock.state = .free) (hl : s.localHolds = true) :
    (s.countMark .localMark false State.adoptLocal).clock = { s.clock.opened .localMark false with
      state := .localMarks, period := some s.store.localPeriod, timingBase := some s.now, origin := .localMark
      tickIndex := some 0 } := by
  have closes : s.clock.state.closes = true := by rw [hf]; rfl
  have opened := State.markOpened_clock (origin := .localMark) (rollHigh := false) closes
  have read := TickLasting.takeMidpoints (s.midpoints false) (s.captureOpened .localMark false)
  obtain ⟨alone, valid, quiet⟩ := State.localHolds_iff.1 hl
  have store : (s.markOpened .localMark false).store = s.store := read.store_of_valid valid
  have time : (s.markOpened .localMark false).now = s.now := read.now
  have holds : (s.markOpened .localMark false).localClock.localHolds = true := by
    refine State.localHolds_iff.2 ⟨read.alone.trans alone, ?_, ?_⟩
    · exact (congrArg (·.phase) store).trans valid
    · show (s.markOpened .localMark false).clock.lastMark + 150000000 ≤ (s.markOpened .localMark false).now
      rw [opened, time]
      exact quiet
  have judged := TickLasting.judgeArm (recorded := True) (s.markOpened .localMark false).localClock
  have adopted : (State.adoptLocal (s.markOpened .localMark false)).clock =
      (s.markOpened .localMark false).localClock.clock := judged.clock_of_localHolds rfl holds
  have stays : (State.adoptLocal (s.markOpened .localMark false)).localHolds = true :=
    (judged.localHolds judged.lastMark).trans holds
  have local_ : (s.markOpened .localMark false).localClock.clock = { s.clock.opened .localMark false with
      state := .localMarks, period := some s.store.localPeriod, timingBase := some s.now, origin := .localMark } := by
    simp only [State.localClock, State.onClock, opened, store, time]
    rfl
  rw [local_] at adopted
  rw [State.countMark_eq]
  generalize State.adoptLocal (s.markOpened .localMark false) = z at *
  have clock : z.engineMark.clock = _ := (State.engineMark_clock z).trans adopted
  have marked : z.engineMark.localHolds = true := by
    have fixed := z.engineMark_fixed
    have store : z.engineMark.store = z.store := congrArg (·.store) fixed
    have now : z.engineMark.now = z.now := congrArg (·.now) fixed
    rw [← stays, State.localHolds, State.localHolds, State.engineMark_alone, State.engineMark_clock, store, now]
  rw [State.tickZero, if_pos (by rw [clock]; rfl)]
  have last := (ClockLasting.issueTick (recorded := True) 0 z.engineMark).clock_of_localHolds
    (by show z.engineMark.clock.state = _; rw [clock]) marked
  rw [last]
  show { z.engineMark.clock with tickIndex := some 0 } = _
  rw [clock]

end

end Sys2Proof.Machine

open Sys2Proof Sys2Proof.Machine

/-- Settles O39: `State.ownMark` in COASTING and in LOCAL, and the counted mark that begins LOCAL. -/
theorem clockMakesItsOwnMarks : Obligations.ClockMakesItsOwnMarks := by
  unfold Obligations.ClockMakesItsOwnMarks
  refine ⟨fun s base p ht hp => ⟨fun hs => ?_, fun hs => ?_⟩,
    fun s h own e hs closed place entry participant alone valid header => ?_⟩
  · have run : exec .coastingMark s =
        .next ((s.reach (base + p)).ownMark .coasting .synthesized (base + p)) := by
      refine congrArg Host.Outcome.next ?_
      simp [State.atInstant, FrameClock.ownMarkAt, ht, hp, hs]
    obtain ⟨now, missed, turned, counted, stays⟩ :=
      State.ownMark_spec hs (by rfl) .synthesized (by decide) (base + p)
    refine ⟨_, run, now, missed, turned, fun hu => ?_⟩
    obtain ⟨opens, clock⟩ := counted (stays rfl hu)
    refine ⟨stays rfl hu, ?_, opens, ?_, ?_, ?_, ?_, ?_⟩ <;> rw [clock]
    exact hp
  · have run : exec .localMark s =
        .next ((s.reach (base + p)).ownMark .localMarks .localMark (base + p)) := by
      refine congrArg Host.Outcome.next ?_
      simp [State.atInstant, FrameClock.ownMarkAt, ht, hp, hs]
    obtain ⟨now, missed, turned, counted, -⟩ :=
      State.ownMark_spec hs (by rfl) .localMark (by decide) (base + p)
    refine ⟨_, run, now, missed, turned, fun hu => ?_⟩
    obtain ⟨opens, clock⟩ := counted hu
    refine ⟨?_, opens, ?_, ?_, ?_, ?_, ?_⟩ <;> rw [clock]
    exact hp
  · have lone : s.roster.aloneParticipant = true := by
      have count : s.roster.participantCount = 1 := List.countP_eq_length_filter.trans alone
      simp [Roster.aloneParticipant, closed, count, place, entry, participant]
    have run : exec .localEntry s = .next ((s.reach (s.clock.lastMark + 150000000)).countMark .localMark false
        State.adoptLocal) := by
      refine congrArg Host.Outcome.next ?_
      simp [State.atInstant, State.localEntryAt, hs, lone, valid, Config.markQuietClocks]
    have holds : (s.reach (s.clock.lastMark + 150000000)).localHolds = true :=
      State.localHolds_iff.2 ⟨lone, valid, Nat.le_max_right ..⟩
    have now := State.countMark_now Adoption.adoptLocal (origin := .localMark) (rollHigh := false)
      (s.reach (s.clock.lastMark + 150000000))
    have clock := State.countMark_local (s := s.reach (s.clock.lastMark + 150000000)) hs holds
    have opens := (PassLasting.refl (recorded := False) (s.reach (s.clock.lastMark + 150000000))).markOpens
      (s := s) Adoption.adoptLocal (origin := .localMark) (rollHigh := false)
    have period : s.store.localPeriod = 50000000 / h.refRate := by rw [MoveStore.localPeriod, header]
    refine ⟨_, run, now, ?_, ?_, ?_, ?_, opens, ?_, ?_, ?_⟩ <;> rw [clock]
    · exact congrArg some period
    · exact congrArg some now.symm
    · rfl
    · exact nextRoll_of_ne (origin := .localMark) (by decide) false _

end

section
/-! PROOFS. Causes raised outside a pass under the default dispositions (R117, R187), and what an evaluation of a
return raises (R73, R81, R83). -/

namespace Sys2Proof.Machine

/-! ## The relation -/

/-- The node is out of a pass and the default dispositions stand (R89, R115). -/
structure State.OffPass (s : State) : Prop where
  outside : s.engine.nodeState.inPass = false
  defaults : s.defaults

/-- What a halting cause makes of the engine outside a pass (R117); `start` is where the report timer then stands. -/
def Engine.alarmed (start : Nat) (e : Engine) : Engine :=
  if e.nodeState = .armed ∨ e.nodeState = .pending then
    { e with nodeState := .idle, path := { e.path with onPath := false }, reportStart := start }
  else if e.nodeState = .slewing ∨ e.nodeState = .returning then { e with slew := e.slew.map Slew.decelerate }
  else e

theorem Engine.alarmed_armed {e : Engine} (h : e.nodeState = .armed ∨ e.nodeState = .pending) (n : Nat) :
    e.alarmed n = { e with nodeState := .idle, path := { e.path with onPath := false }, reportStart := n } :=
  if_pos h

theorem Engine.alarmed_slewing {e : Engine} (h : e.nodeState = .slewing ∨ e.nodeState = .returning) (n : Nat) :
    e.alarmed n = { e with slew := e.slew.map Slew.decelerate } := by
  unfold Engine.alarmed
  rw [if_neg (by rcases h with h | h <;> simp [h]), if_pos h]

/-- A node that no halting cause changes. -/
def NodeState.unalarmed : NodeState → Bool
  | .armed | .pending | .slewing | .returning => false
  | _ => true

theorem Engine.alarmed_of_unalarmed {e : Engine} (h : e.nodeState.unalarmed = true) (n : Nat) : e.alarmed n = e := by
  unfold Engine.alarmed
  rw [if_neg, if_neg] <;> rintro (hn | hn) <;> rw [hn] at h <;> exact absurd h (by decide)

theorem Supervision.addAxis_mono (c : Cause) (a : Option (Fin 4)) (u : Supervision) (k : Fin 6) (b : Fin 4)
    (h : u.axisSets[k].getLsbD b.val = true) : (u.addAxis c a).axisSets[k].getLsbD b.val = true := by
  unfold Supervision.addAxis
  generalize c.axisSlot = slot
  rcases slot with - | j <;> rcases a with - | x
  case some.some =>
    have written : (u.axisSets.set j (u.axisSets[j] ||| 1#4 <<< x.val))[k].getLsbD b.val = true := by
      rw [Fin.getElem_fin, Vector.getElem_set]
      split
      next same =>
        obtain rfl : j = k := Fin.ext same
        rw [BitVec.getLsbD_or, h, Bool.true_or]
      · exact h
    exact written
  all_goals exact h

/-- From `s` to `t` causes have been raised outside a pass, halting ones among them where `halts`. -/
structure Alarmed (halts : Prop) (s t : State) : Prop where
  fixed : t = { s with
    line := { s.line with txQueue := t.line.txQueue }
    clock := t.clock, cues := t.cues, free := t.free, engine := t.engine
    sup := { s.sup with
      latched := t.sup.latched, notes := t.sup.notes, axisSets := t.sup.axisSets, origins := t.sup.origins
      counters := t.sup.counters, exception := t.sup.exception, exceptionCount := t.sup.exceptionCount } }
  calm : ¬ halts → t.engine = s.engine ∧ t.clock = s.clock
  halted : halts → t.engine = s.engine.alarmed t.engine.reportStart
  slewStart : t.clock.slewStart = s.clock.slewStart
  latched : ∀ c, s.latchedCause c = true → t.latchedCause c = true
  sets : ∀ (k : Fin 6) (a : Fin 4), s.sup.axisSets[k].getLsbD a.val = true → t.sup.axisSets[k].getLsbD a.val = true

theorem Engine.alarmed_alarmed (n m : Nat) (e : Engine) :
    (e.alarmed n).alarmed m = e.alarmed n ∧ (e.alarmed n).nodeState.inPass = e.nodeState.inPass := by
  have once (sl : Slew) : sl.decelerate.decelerate = sl.decelerate := by cases sl <;> rfl
  by_cases ha : e.nodeState = .armed ∨ e.nodeState = .pending
  · rw [e.alarmed_armed ha, Engine.alarmed_of_unalarmed (by rfl)]
    exact ⟨rfl, by rcases ha with ha | ha <;> rw [ha] <;> rfl⟩
  · by_cases hs : e.nodeState = .slewing ∨ e.nodeState = .returning
    · rw [e.alarmed_slewing hs, Engine.alarmed_slewing (by exact hs)]
      refine ⟨?_, rfl⟩
      cases e.slew <;> simp [once]
    · have rests : e.nodeState.unalarmed = true := by
        cases hn : e.nodeState <;> simp [hn, NodeState.unalarmed] at ha hs ⊢
      rw [e.alarmed_of_unalarmed rests, e.alarmed_of_unalarmed rests]
      exact ⟨rfl, rfl⟩

namespace Alarmed
variable {halts halts' : Prop} {s t u : State}

theorem congr (h : Alarmed halts s t) (hh : halts ↔ halts') : Alarmed halts' s t := propext hh ▸ h

theorem node (h : Alarmed halts s t) : t.engine.nodeState.inPass = s.engine.nodeState.inPass := by
  by_cases hh : halts
  · rw [h.halted hh]
    exact (s.engine.alarmed_alarmed _ 0).2
  · rw [(h.calm hh).1]

theorem offPass (h : Alarmed halts s t) (hs : s.OffPass) : t.OffPass where
  outside := h.node.trans hs.outside
  defaults := (congrArg (·.sup.dispositions) h.fixed).trans hs.defaults

/-- Nothing but flags and what STATUS shows of them has changed. -/
theorem of_sup (h : t = { s with
      sup := { s.sup with
        latched := t.sup.latched, axisSets := t.sup.axisSets, origins := t.sup.origins
        exception := t.sup.exception, exceptionCount := t.sup.exceptionCount }
      free := t.free })
    (hl : ∀ c, s.latchedCause c = true → t.latchedCause c = true)
    (ha : ∀ (k : Fin 6) (a : Fin 4), s.sup.axisSets[k].getLsbD a.val = true →
      t.sup.axisSets[k].getLsbD a.val = true) : Alarmed False s t := by
  have line : t.line = s.line := by rw [h]
  have clock : t.clock = s.clock := by rw [h]
  have engine : t.engine = s.engine := by rw [h]
  refine ⟨?_, fun _ => ⟨engine, clock⟩, False.elim, by rw [clock], hl, ha⟩
  generalize t.sup.latched = l, t.sup.axisSets = sets, t.sup.origins = o, t.sup.exception = x,
    t.sup.exceptionCount = n, t.free = free at h
  subst h
  rfl

theorem refl (s : State) : Alarmed False s s := of_sup rfl (fun _ => id) fun _ _ => id

theorem trans (h : Alarmed halts s t) (k : Alarmed halts' t u) : Alarmed (halts ∨ halts') s u where
  fixed := by
    have hk := k.fixed
    rw [h.fixed] at hk
    exact hk
  calm hn := by
    obtain ⟨engine, clock⟩ := h.calm fun hh => hn (.inl hh)
    obtain ⟨engine', clock'⟩ := k.calm fun hh => hn (.inr hh)
    exact ⟨engine'.trans engine, clock'.trans clock⟩
  halted _ := by
    by_cases hk : halts'
    · have second := k.halted hk
      by_cases hh : halts
      · have first := h.halted hh
        have same : u.engine = t.engine := by
          rw [second, first]
          exact (s.engine.alarmed_alarmed _ _).1
        rw [same]
        exact first
      · rwa [(h.calm hh).1] at second
    · rw [(k.calm hk).1]
      exact h.halted (by tauto)
  slewStart := k.slewStart.trans h.slewStart
  latched c := k.latched c ∘ h.latched c
  sets j a := k.sets j a ∘ h.sets j a

theorem latch (c : Cause) (a : Option (Fin 4)) (n : Option Nat) (s : State) : Alarmed False s (s.latch c a n) := by
  refine of_sup ?_ (fun k => (Calm.latch c a n s).latchedCause) fun k b hb => ?_
  · have fixed := Supervision.latch_eq c a n s.sup
    show { s with sup := s.sup.latch c a n } = _
    rw [State.latch, State.onSup_sup]
    generalize s.sup.latch c a n = v at fixed
    rw [fixed]
    rfl
  · rw [State.latch, State.onSup_sup, Supervision.latch_axisSets]
    exact Supervision.addAxis_mono c a s.sup k b hb

/-- A node that goes IDLE off the path, with a DECLINE or without (R117). -/
theorem disarm {n : Nat} (h : Tells n s t) (hn : s.engine.nodeState = .armed ∨ s.engine.nodeState = .pending)
    (hc : t.clock = s.clock) : Alarmed True s t.disarm := by
  have told := Tells.disarm t
  have node : t.disarm.engine.nodeState = .idle := State.enterNode_nodeState ..
  have slewStart : t.disarm.clock.slewStart = t.clock.slewStart := by
    rcases (t.offPath.note .disarmed).enterNode_clock_cases .idle with ⟨same, -⟩ | ⟨freed, -⟩
    · exact congrArg (·.slewStart) same
    · exact congrArg (·.slewStart) freed
  have notes : t.disarm.sup.latched = t.sup.latched ∧ t.disarm.sup.axisSets = t.sup.axisSets :=
    ⟨congrArg (·.sup.latched) told.fixed, congrArg (·.sup.axisSets) told.fixed⟩
  generalize t.disarm = u at told node slewStart notes
  have path : u.engine.path = { t.engine.path with onPath := false } := congrArg (·.engine.path) told.fixed
  have fixed := told.fixed
  rw [h.fixed] at fixed
  have engine : u.engine = { s.engine with
      nodeState := u.engine.nodeState, path := u.engine.path, reportStart := u.engine.reportStart } := by
    rw [fixed]
    rfl
  have held : t.engine.path = s.engine.path := congrArg (·.engine.path) h.fixed
  have kept : t.sup.latched = s.sup.latched ∧ t.sup.axisSets = s.sup.axisSets :=
    ⟨congrArg (·.sup.latched) h.fixed, congrArg (·.sup.axisSets) h.fixed⟩
  refine ⟨?_, fun hh => absurd trivial hh, fun _ => ?_, slewStart.trans (by rw [hc]), fun c hl => ?_,
    fun k a ha => ?_⟩
  · rw [fixed]
    rfl
  · rw [engine, node, path, held, Engine.alarmed_armed hn]
  · rw [State.latchedCause, notes.1, kept.1]
    exact hl
  · rw [notes.2, kept.2]
    exact ha

/-- R117 outside a pass. -/
theorem haltRig (hs : s.engine.nodeState.inPass = false) (c : Cause) : Alarmed True s (s.haltRig c) := by
  have slewed (hn : s.engine.nodeState = .slewing ∨ s.engine.nodeState = .returning) :
      Alarmed True s s.decelerate := by
    exact ⟨rfl, fun hh => absurd trivial hh, fun _ => (Engine.alarmed_slewing hn _).symm, rfl, fun _ => id,
      fun _ _ => id⟩
  have nothing (hn : s.engine.nodeState.unalarmed = true) : Alarmed True s s :=
    { refl s with calm := fun hh => absurd trivial hh, halted := fun _ => (Engine.alarmed_of_unalarmed hn _).symm }
  unfold State.haltRig
  cases hn : s.engine.nodeState <;> dsimp only
  case running => simp [hn, NodeState.inPass] at hs
  case pending =>
    obtain ⟨q, k, -, offered⟩ :=
      State.offer_flushed (e := .new 1 s.stationField 1
        (bytesOf s.passStart 3 ++ bytesOf DeclineReason.notArmed.code 1) .decline) rfl s
    exact disarm (.offerDecline ..) (.inr hn) (congrArg (·.clock) offered.fixed)
  case armed => exact disarm (.refl s) (.inl hn) rfl
  case slewing => exact slewed (.inl hn)
  case returning => exact slewed (.inr hn)
  all_goals exact nothing (by rw [hn]; rfl)

theorem raise (hs : s.OffPass) {c : Cause} (hc : defaultDispositions[c.idx] ≠ .stopNow) (a : Option (Fin 4))
    (n : Option Nat) : Alarmed (defaultDispositions[c.idx] = .haltRig) s (s.raise c a n) := by
  have disposition : s.sup.disposition c = defaultDispositions[c.idx] := State.disposition_of_defaults hs.defaults
  cases hk : defaultDispositions[c.idx] with
  | stopNow => exact absurd hk hc
  | warn =>
    rw [State.raise_warn a n (disposition.trans hk)]
    exact (latch c a n s).congr (by simp)
  | haltRig =>
    rw [State.raise_haltRig a n (disposition.trans hk)]
    exact ((latch c a n s).trans (haltRig (s := s.latch c a n) hs.outside c)).congr (by simp)

end Alarmed

/-! ## What raising writes in supervision -/

section
variable {s : State} (hs : s.OffPass) {c : Cause}

theorem State.disarm_sup (s : State) : ∃ k m, s.disarm.sup = { s.sup with counters := k, notes := m } :=
  ⟨s.disarm.sup.counters, _, congrArg (·.sup) (Tells.disarm s).fixed⟩

theorem State.haltRig_sup (hs : s.engine.nodeState.inPass = false) (c : Cause) :
    ∃ k m, (s.haltRig c).sup = { s.sup with counters := k, notes := m } := by
  have same : ∃ k m, s.sup = { s.sup with counters := k, notes := m } := ⟨_, _, rfl⟩
  unfold State.haltRig
  cases hn : s.engine.nodeState <;> dsimp only
  case running => simp [hn, NodeState.inPass] at hs
  case pending =>
    obtain ⟨k, m, sup⟩ := (s.offerDecline s.passStart .notArmed).disarm_sup
    have told : (s.offerDecline s.passStart .notArmed).sup = _ :=
      congrArg (·.sup) (Tells.offerDecline s.passStart .notArmed s).fixed
    exact ⟨k, m, by rw [sup, told]⟩
  case armed => exact s.disarm_sup
  all_goals exact same

include hs

theorem State.OffPass.raise_sup (hc : defaultDispositions[c.idx] ≠ .stopNow) (a : Option (Fin 4)) (n : Option Nat) :
    ∃ k m, (s.raise c a n).sup = { s.sup.latch c a n with counters := k, notes := m } := by
  have disposition : s.sup.disposition c = defaultDispositions[c.idx] := State.disposition_of_defaults hs.defaults
  cases hk : defaultDispositions[c.idx] with
  | stopNow => exact absurd hk hc
  | warn =>
    rw [State.raise_warn a n (disposition.trans hk)]
    exact ⟨_, _, rfl⟩
  | haltRig =>
    rw [State.raise_haltRig a n (disposition.trans hk)]
    exact State.haltRig_sup (s := s.latch c a n) hs.outside c

theorem State.OffPass.raise_latched (hc : defaultDispositions[c.idx] ≠ .stopNow) (a : Option (Fin 4))
    (n : Option Nat) {k : Cause} (h : k ≠ c) : (s.raise c a n).latchedCause k = s.latchedCause k := by
  obtain ⟨counters, notes, sup⟩ := hs.raise_sup hc a n
  rw [State.latchedCause, sup]
  exact State.latchedCause_latch_of_ne h a n s

theorem State.OffPass.raise_axisSets (hc : defaultDispositions[c.idx] ≠ .stopNow) (a : Option (Fin 4))
    (n : Option Nat) : (s.raise c a n).sup.axisSets = (s.sup.addAxis c a).axisSets := by
  obtain ⟨counters, notes, sup⟩ := hs.raise_sup hc a n
  rw [sup]
  exact Supervision.latch_axisSets ..

/-- A cause that no evaluation raises leaves the evaluations' marks. -/
theorem State.OffPass.raise_evalMarks (hc : defaultDispositions[c.idx] ≠ .stopNow)
    (h : c ≠ .softLimitClamp ∧ c ≠ .arithOverflow) (a : Option (Fin 4)) (n : Option Nat) :
    (s.raise c a n).evalMarks = s.evalMarks := by
  obtain ⟨counters, notes, sup⟩ := hs.raise_sup hc a n
  obtain ⟨clamp, arith⟩ := h
  have slot : c.axisSlot ≠ some 4 := by
    cases c <;> simp_all [Cause.axisSlot]
  have sets : (s.raise c a n).sup.axisSets[4] = s.sup.axisSets[4] := by
    rw [hs.raise_axisSets hc]
    exact Supervision.addAxis_axisSets_of_ne slot a s.sup
  have fixed := Supervision.latch_eq c a n s.sup
  have count : (s.raise c a n).sup.exceptionCount = s.sup.exceptionCount := by
    rw [sup]
    exact congrArg (·.exceptionCount) fixed
  have record : (s.raise c a n).sup.exception = s.sup.exception := by
    rw [sup]
    exact congrArg (·.exception) fixed
  simp only [State.evalMarks, hs.raise_latched hc a n clamp.symm, hs.raise_latched hc a n arith.symm, sets, count,
    record]

end

/-! ## An evaluation in a return -/

/-- From `s` to `t` an evaluation has raised the exceptions `found` and the clamps of the axes `clamps`. -/
structure ReturnEvaluated (tick : Nat) (found : List (ExceptionCode × Fin 4 × Option Nat)) (clamps : List (Fin 4))
    (s t : State) : Prop where
  alarmed : Alarmed (clamps ≠ []) s t
  taken : EvalMarks.Taken .slew tick found clamps s.evalMarks t.evalMarks

namespace ReturnEvaluated
variable {tick : Nat} {found found' : List (ExceptionCode × Fin 4 × Option Nat)} {clamps clamps' : List (Fin 4)}
  {s t u : State}

theorem refl (s : State) : ReturnEvaluated tick [] [] s s := ⟨(Alarmed.refl s).congr (by simp), .refl _⟩

theorem append (h : ReturnEvaluated tick found clamps s t) (k : ReturnEvaluated tick found' clamps' t u) :
    ReturnEvaluated tick (found ++ found') (clamps ++ clamps') s u where
  alarmed := (h.alarmed.trans k.alarmed).congr (by rw [Ne, Ne, Ne, List.append_eq_nil_iff]; tauto)
  taken := h.taken.append k.taken

/-- R83. -/
theorem arithException (hs : s.OffPass) (code : ExceptionCode) (a : Fin 4) (key : Option Nat) :
    ReturnEvaluated tick [(code, a, key)] [] s (s.arithException code a key .slew tick) := by
  rw [State.arithException, State.raise_warn _ _ (State.disposition_of_defaults hs.defaults)]
  have latched : (s.latch .arithOverflow none none).latchedCause .arithOverflow = true :=
    State.latchedCause_latch ..
  have unclamped := State.latchedCause_latch_of_ne (c := .arithOverflow) (k := .softLimitClamp) (by decide)
    none none s
  have alarmed := Alarmed.latch .arithOverflow none none s
  have sets : (s.latch .arithOverflow none none).sup.axisSets[4] = s.sup.axisSets[4] := rfl
  have count : (s.latch .arithOverflow none none).sup.exceptionCount = s.sup.exceptionCount := rfl
  have exception : (s.latch .arithOverflow none none).sup.exception = s.sup.exception := rfl
  generalize s.latch .arithOverflow none none = u at latched unclamped alarmed sets count exception ⊢
  obtain ⟨e, free, recorded, kept, first⟩ := u.recordException_eq code a key .slew tick
  rw [recorded]
  rw [exception] at kept first
  have written : Alarmed False u { u with
      sup := { u.sup with exceptionCount := bump8 u.sup.exceptionCount, exception := e }, free := free } :=
    .of_sup rfl (fun _ => id) fun _ _ => id
  exact ⟨(alarmed.trans written).congr (by simp),
    .of_exception ⟨unclamped, sets⟩ latched (congrArg bump8 count) kept first⟩

/-- R81. -/
theorem clamp (hs : s.OffPass) (a : Fin 4) :
    ReturnEvaluated tick [] [a] s (s.raise .softLimitClamp (some a) none) where
  alarmed := (Alarmed.raise hs (by decide) ..).congr (iff_of_true (by decide) (List.cons_ne_nil a []))
  taken := by
    obtain ⟨counters, notes, sup⟩ := hs.raise_sup (c := .softLimitClamp) (by decide) (some a) none
    have fixed := Supervision.latch_eq .softLimitClamp (some a) none s.sup
    refine .of_clamp (State.latchedCause_raise ..) ?_ ⟨?_, ?_, ?_⟩
    · show (s.raise .softLimitClamp (some a) none).sup.axisSets[4] = _
      rw [hs.raise_axisSets (by decide)]
      exact Vector.getElem_set_self ..
    · exact hs.raise_latched (by decide) _ _ (by decide)
    · exact (congrArg Supervision.exceptionCount sup).trans (congrArg (·.exceptionCount) fixed)
    · exact (congrArg Supervision.exception sup).trans (congrArg (·.exception) fixed)

theorem of_ite {p : Prop} [Decidable p] {l l' : List (ExceptionCode × Fin 4 × Option Nat)}
    (ht : p → ReturnEvaluated tick l clamps s t) (hu : ¬ p → ReturnEvaluated tick l' clamps' s u) :
    ReturnEvaluated tick (if p then l else l') (if p then clamps else clamps') s (if p then t else u) := by
  split
  · exact ht ‹_›
  · exact hu ‹_›

theorem raiseAxisEval (hs : s.OffPass) (a : Fin 4) (ev : AxisEval) (tick : Nat) :
    ReturnEvaluated tick (ev.exceptions a) (if ev.clamped then [a] else []) s (s.raiseAxisEval a ev .slew tick) := by
  have excepted (code : ExceptionCode) (b : Bool) {t : State} (ht : t.OffPass) :
      ReturnEvaluated tick (if b then [(code, a, ev.keyIndex)] else []) [] t
        (if b then t.arithException code a ev.keyIndex .slew tick else t) := by
    have done := of_ite (p := b) (tick := tick) (fun _ => .arithException ht code a ev.keyIndex) fun _ => .refl t
    rwa [ite_self] at done
  have first := excepted .overflowEval ev.overflowEval hs
  have second := excepted .overflowScale ev.overflowScale (first.alarmed.offPass hs)
  have both := first.append second
  have clamped := of_ite (p := ev.clamped) (tick := tick)
    (fun _ => .clamp (both.alarmed.offPass hs) a) fun _ => .refl _
  rw [ite_self] at clamped
  have all := both.append clamped
  rwa [List.append_nil, List.nil_append] at all

/-- What an evaluation raises, the earlier axis first. -/
theorem raiseEval (hs : s.OffPass) (evs : Vector (Option AxisEval) 4) (tick : Nat) :
    ReturnEvaluated tick (exceptionsOf (fun a => evs[a]) axisOrder) (clampsOf (fun a => evs[a]) axisOrder) s
      (s.raiseEval evs .slew tick) := by
  unfold State.raiseEval
  induction axisOrder generalizing s with
  | nil => exact .refl s
  | cons a axes ih =>
    rw [List.foldl_cons]
    cases he : evs[a] with
    | none =>
      rw [exceptionsOf_cons_none (evs := fun a => evs[a]) axes he,
        clampsOf_cons_none (evs := fun a => evs[a]) axes he]
      exact ih hs
    | some ev =>
      rw [exceptionsOf_cons_some (evs := fun a => evs[a]) axes he,
        clampsOf_cons_some (evs := fun a => evs[a]) axes he]
      have first := raiseAxisEval hs a ev tick
      exact first.append (ih (first.alarmed.offPass hs))

end ReturnEvaluated

end Sys2Proof.Machine
end

section
/-! PROOFS. What the work of a slew tick hands to the channels (R95, R101, R134, R146). -/

namespace Sys2Proof.Machine

/-! ## Alarms beside outputs -/

theorem Engine.alarmed_holds (n : Nat) (holds : Vector Int 4) (e : Engine) :
    ({ e with holdTargets := holds } : Engine).alarmed n = { e.alarmed n with holdTargets := holds } := by
  unfold Engine.alarmed
  dsimp only
  split
  · rfl
  · split <;> rfl

namespace Alarmed
variable {halts : Prop} {s t : State} (h : Alarmed halts s t)
include h

theorem axes : t.axes = s.axes := congrArg (·.axes) h.fixed
theorem levels : t.levels = s.levels := congrArg (·.levels) h.fixed
theorem store : t.store = s.store := congrArg (·.store) h.fixed
theorem now : t.now = s.now := congrArg (·.now) h.fixed

theorem holdTargets : t.engine.holdTargets = s.engine.holdTargets := by
  by_cases hh : halts
  · rw [h.halted hh]
    exact congrArg (·.holdTargets) (Engine.alarmed_holds t.engine.reportStart s.engine.holdTargets s.engine)
  · rw [(h.calm hh).1]

theorem withOutputs (axes : Vector AxisChannel 4) (holds : Vector Int 4) (levels : Vector LevelChannel 2) :
    Alarmed halts (s.withOutputs axes holds levels s.cues) (t.withOutputs axes holds levels t.cues) where
  fixed := congrArg (State.withOutputs axes holds levels t.cues) h.fixed
  calm hh := by
    obtain ⟨engine, clock⟩ := h.calm hh
    exact ⟨congrArg (fun e : Engine => { e with holdTargets := holds }) engine, clock⟩
  halted hh := by
    have halted := congrArg (fun e : Engine => { e with holdTargets := holds }) (h.halted hh)
    exact halted.trans (Engine.alarmed_holds ..).symm
  slewStart := h.slewStart
  latched := h.latched
  sets := h.sets

end Alarmed

/-- Causes raised between two changes of one channel. -/
theorem Alarmed.onAxis_outputs {halts : Prop} {s u : State} {a : Fin 4} {g : AxisChannel → AxisChannel}
    (h : Alarmed halts (s.onAxis a g) u) (f : AxisChannel → AxisChannel) :
    Alarmed halts (s.withOutputs (s.axes.set a (f (g s.axes[a]))) s.engine.holdTargets s.levels s.cues)
      (u.onAxis a f) := by
  have outputs : Alarmed halts ((s.onAxis a g).withOutputs (u.axes.set a (f u.axes[a])) u.engine.holdTargets u.levels
      s.cues) (u.onAxis a f) := h.withOutputs ..
  have axes : u.axes.set a (f u.axes[a]) = s.axes.set a (f (g s.axes[a])) := by
    rw [h.axes]
    simp
  rw [axes, h.holdTargets, h.levels] at outputs
  exact outputs

theorem State.channelTakes_of_alarmed {halts : Prop} {s t : State} (h : Alarmed halts s t) (a : Fin 4) (target : Int)
    (duration : Nat) : t.channelTakes a target duration = s.channelTakes a target duration := by
  rw [h.fixed]
  rfl

theorem State.withOutputs_self (a : Fin 4) (s : State) : s.withOutputs (s.axes.set a s.axes[a])
    (s.engine.holdTargets.set a s.engine.holdTargets[a]) s.levels s.cues = s := by
  simp [State.withOutputs]

/-! ## The following check (R146) -/

/-- The node is in a state in which following checks are made. -/
def State.checks (s : State) : Prop := s.engine.nodeState ≠ .settling ∧ s.engine.nodeState ≠ .excluded

/-- Axis `a`'s following check raises FOLLOWING_ERROR. -/
def State.checksBadly (a : Fin 4) (s : State) : Prop := s.checks ∧ s.followsBadly a

theorem Alarmed.checks {halts : Prop} {s t : State} (h : Alarmed halts s t) : t.checks ↔ s.checks := by
  by_cases hh : halts
  · have engine := h.halted hh
    generalize t.engine.reportStart = n at engine
    unfold State.checks
    rw [engine]
    by_cases ha : s.engine.nodeState = .armed ∨ s.engine.nodeState = .pending
    · rw [Engine.alarmed_armed ha]
      rcases ha with ha | ha <;> simp [ha]
    · by_cases hs : s.engine.nodeState = .slewing ∨ s.engine.nodeState = .returning
      · rw [Engine.alarmed_slewing hs]
      · rw [Engine.alarmed, if_neg ha, if_neg hs]
  · rw [State.checks, (h.calm hh).1]
    rfl

section
variable {s : State} {a : Fin 4}

theorem State.followingCheck_of_bad (h : s.checksBadly a) :
    s.followingCheck a = s.raise .followingError (some a) none := by
  obtain ⟨⟨settled, placed⟩, plays, ratio, setup, held, limit⟩ := h
  rw [State.followingCheck, if_neg (not_or_intro settled placed), if_pos ⟨plays, ratio⟩, held]
  exact if_pos limit

theorem State.followingCheck_of_not (h : ¬ s.checksBadly a) : s.followingCheck a = s := by
  unfold State.followingCheck
  split
  · rfl
  next active =>
    split
    next sounds =>
      split
      next setup held =>
        split
        next limit => exact absurd ⟨not_or.1 active, sounds.1, sounds.2, setup, held, limit⟩ h
        · rfl
      · rfl
    · rfl

end

/-! ## The work at one channel -/

/-- From `s` to `t` the work at channel `a` has left it as `x`, with `hold` its hold target; its check has found the
axis astray where `bad`. -/
structure AxisWorked (a : Fin 4) (x : AxisChannel) (hold : Int) (bad : Prop) (s t : State) : Prop where
  alarmed : Alarmed bad (s.withOutputs (s.axes.set a x) (s.engine.holdTargets.set a hold) s.levels s.cues) t
  evalMarks : t.evalMarks = s.evalMarks
  following : t.latchedCause .followingError = true ↔ s.latchedCause .followingError = true ∨ bad
  set : bad → t.sup.axisSets[2].getLsbD a.val = true

theorem AxisWorked.refl (a : Fin 4) (s : State) :
    AxisWorked a s.axes[a] s.engine.holdTargets[a] False s s where
  alarmed := by
    rw [State.withOutputs_self]
    exact .refl s
  evalMarks := rfl
  following := by simp
  set := False.elim

theorem AxisWorked.congr {a : Fin 4} {x : AxisChannel} {hold : Int} {bad bad' : Prop} {s t : State}
    (h : AxisWorked a x hold bad s t) (hb : bad ↔ bad') : AxisWorked a x hold bad' s t := propext hb ▸ h

section
variable {s : State} (hs : s.OffPass) (a : Fin 4)
include hs

theorem AxisWorked.followingCheck :
    AxisWorked a s.axes[a] s.engine.holdTargets[a] (s.checksBadly a) s (s.followingCheck a) := by
  by_cases h : s.checksBadly a
  · rw [State.followingCheck_of_bad h]
    refine ⟨?_, hs.raise_evalMarks (by decide) (by decide) .., ?_, fun _ => ?_⟩
    · rw [State.withOutputs_self]
      exact (Alarmed.raise hs (by decide) ..).congr (iff_of_true (by decide) h)
    · exact iff_of_true (State.latchedCause_raise ..) (.inr h)
    · rw [hs.raise_axisSets (by decide)]
      have written : (s.sup.addAxis .followingError (some a)).axisSets[2] = s.sup.axisSets[2] ||| 1#4 <<< a.val :=
        Vector.getElem_set_self ..
      simp [written, a.isLt]
  · rw [State.followingCheck_of_not h]
    exact (AxisWorked.refl a s).congr (by simp [h])

/-! ## A target handed outside a pass -/

theorem Alarmed.deficitRaised (plan : Option (Plan × Bool)) :
    Alarmed False (s.onAxis a (.countDeficit plan)) (s.deficitRaised a plan) := by
  unfold State.deficitRaised
  split
  · exact (Alarmed.raise (s := s.onAxis a _) (c := .stepDeficit) ⟨hs.outside, hs.defaults⟩ (by decide) ..).congr
      (by decide)
  next none =>
    have same : s.onAxis a (.countDeficit plan) = s := by
      simp [State.onAxis, AxisChannel.countDeficit, none]
    rw [same]
    exact .refl s

theorem State.OffPass.deficitRaised_marks (plan : Option (Plan × Bool)) :
    (s.deficitRaised a plan).evalMarks = s.evalMarks ∧
    (s.deficitRaised a plan).latchedCause .followingError = s.latchedCause .followingError := by
  have offPass : (s.onAxis a (.countDeficit plan)).OffPass := ⟨hs.outside, hs.defaults⟩
  unfold State.deficitRaised
  split
  · exact ⟨offPass.raise_evalMarks (c := .stepDeficit) (by decide) (by decide) ..,
      offPass.raise_latched (c := .stepDeficit) (by decide) _ _ (by decide)⟩
  · exact ⟨rfl, rfl⟩

/-- A plan that replaces the channel's, from the following check on. -/
theorem AxisWorked.planReplaced {target : Int} {duration : Nat} {plan : Option (Plan × Bool)}
    (hp : s.axes[a].planOf s.now s.store a target duration = plan) :
    AxisWorked a (s.channelTakes a target duration) s.engine.holdTargets[a] False s
      (if s.store.axisDisabled a then s
      else ((s.deficitRaised a plan).onAxis a (.replacePlan (s.deficitRaised a plan).now plan)).suppress a) := by
  by_cases disabled : s.store.axisDisabled a = true
  · have same : s.channelTakes a target duration = s.axes[a] := if_pos disabled
    rw [if_pos disabled, same]
    exact .refl a s
  · have alarmed := Alarmed.deficitRaised hs a plan
    obtain ⟨marks, following⟩ := hs.deficitRaised_marks a plan
    rw [if_neg disabled, State.suppress_eq, State.onAxis_onAxis]
    have takes : s.channelTakes a target duration =
        (s.deficitRaised a plan).sup.suppressed a
          ((s.axes[a].countDeficit plan).replacePlan (s.deficitRaised a plan).now plan) := by
      rw [alarmed.fixed]
      simp only [State.channelTakes, hp, if_neg disabled]
      rfl
    refine ⟨?_, marks, (Bool.eq_iff_iff.1 following).trans (by simp), False.elim⟩
    have hold : s.engine.holdTargets.set a s.engine.holdTargets[a] = s.engine.holdTargets := by simp
    rw [takes, hold]
    exact alarmed.onAxis_outputs fun x => (s.deficitRaised a plan).sup.suppressed a
      (x.replacePlan (s.deficitRaised a plan).now plan)

theorem AxisWorked.handTarget (target : Int) (duration : Nat) :
    AxisWorked a (s.channelTakes a target duration) s.engine.holdTargets[a] (s.checksBadly a) s
      (s.handTarget a target duration) := by
  have checked := AxisWorked.followingCheck hs a
  have alarmed := checked.alarmed
  rw [State.withOutputs_self] at alarmed
  generalize hp : (s.followingCheck a).axes[a].planOf (s.followingCheck a).now (s.followingCheck a).store a target
    duration = plan
  have replaced := AxisWorked.planReplaced (alarmed.offPass hs) a hp
  rw [State.handTarget_eq rfl hp]
  generalize (if (s.followingCheck a).store.axisDisabled a then s.followingCheck a else _) = u at replaced ⊢
  have outputs := alarmed.withOutputs (s.axes.set a (s.channelTakes a target duration))
    (s.engine.holdTargets.set a s.engine.holdTargets[a]) s.levels
  have second := replaced.alarmed
  rw [State.channelTakes_of_alarmed alarmed, alarmed.axes, alarmed.holdTargets, alarmed.levels] at second
  refine ⟨(outputs.trans second).congr (by simp), replaced.evalMarks.trans checked.evalMarks, ?_, fun hb => ?_⟩
  · rw [replaced.following, or_iff_left id, checked.following]
  · exact second.sets 2 a (checked.set hb)

theorem AxisWorked.handHeld (target : Int) (duration : Nat) :
    AxisWorked a (s.channelTakes a target duration) target (s.checksBadly a) s (s.handHeld a target duration) := by
  have handed := AxisWorked.handTarget
    (s := s.onEngine fun e => { e with holdTargets := e.holdTargets.set a target }) ⟨hs.outside, hs.defaults⟩ a
    target duration
  refine ⟨?_, handed.evalMarks, handed.following, handed.set⟩
  have same : (s.engine.holdTargets.set a target).set a (s.engine.holdTargets.set a target)[a] =
      s.engine.holdTargets.set a target := by simp
  have alarmed : Alarmed (s.checksBadly a) (s.withOutputs (s.axes.set a (s.channelTakes a target duration))
      ((s.engine.holdTargets.set a target).set a (s.engine.holdTargets.set a target)[a]) s.levels s.cues)
      (s.handHeld a target duration) := handed.alarmed
  rwa [same] at alarmed

end

/-! ## The work of a slew tick at every channel -/

/-- What a slew tick does at a channel: nothing, the following check alone, a new hold target handed, the hold target
handed as a new one, or handed again where the axis owes steps (R101). -/
inductive AxisWork where
  | skip
  | check
  | hand (target : Int)
  | again
  | rehand

/-- Whether it makes the following check. -/
def AxisWork.checks : AxisWork → Prop
  | .skip => False
  | .check | .hand _ | .again | .rehand => True

def State.axisWork (a : Fin 4) (w : AxisWork) (s : State) : State :=
  match w with
  | .skip => s
  | .check => s.followingCheck a
  | .hand target => s.handHeld a target 50000
  | .again => s.handTarget a s.engine.holdTargets[a] 50000
  | .rehand => s.rehand a

/-- The channel after it. -/
def State.workedAxis (a : Fin 4) (w : AxisWork) (s : State) : AxisChannel :=
  match w with
  | .skip | .check => s.axes[a]
  | .hand target => s.channelTakes a target 50000
  | .again => s.channelTakes a s.engine.holdTargets[a] 50000
  | .rehand => if s.owesSteps a then s.channelTakes a s.engine.holdTargets[a] 50000 else s.axes[a]

/-- The hold target after it. -/
def AxisWork.holds (old : Int) : AxisWork → Int
  | .hand target => target
  | .skip | .check | .again | .rehand => old

/-- From `s` to `t` the work `w` of a slew tick has been done. -/
structure Worked (w : Fin 4 → AxisWork) (s t : State) : Prop where
  alarmed : Alarmed (∃ a, (w a).checks ∧ s.checksBadly a)
    (s.withOutputs t.axes t.engine.holdTargets s.levels s.cues) t
  evalMarks : t.evalMarks = s.evalMarks
  axes : ∀ a : Fin 4, t.axes[a] = s.workedAxis a (w a)
  holds : ∀ a : Fin 4, t.engine.holdTargets[a] = (w a).holds s.engine.holdTargets[a]
  following : t.latchedCause .followingError = true ↔
    s.latchedCause .followingError = true ∨ ∃ a, (w a).checks ∧ s.checksBadly a
  set : ∀ a, (w a).checks ∧ s.checksBadly a → t.sup.axisSets[2].getLsbD a.val = true

theorem AxisWorked.axisWork {s : State} (hs : s.OffPass) (a : Fin 4) (w : AxisWork) :
    AxisWorked a (s.workedAxis a w) (w.holds s.engine.holdTargets[a]) (w.checks ∧ s.checksBadly a) s
      (s.axisWork a w) := by
  have checked : True ∧ s.checksBadly a ↔ s.checksBadly a := by simp
  cases w with
  | skip => exact (AxisWorked.refl a s).congr (by simp [AxisWork.checks])
  | check => exact (AxisWorked.followingCheck hs a).congr checked.symm
  | hand target => exact (AxisWorked.handHeld hs a target 50000).congr checked.symm
  | again => exact (AxisWorked.handTarget hs a s.engine.holdTargets[a] 50000).congr checked.symm
  | rehand =>
    have axis : s.workedAxis a .rehand =
        if s.owesSteps a then s.channelTakes a s.engine.holdTargets[a] 50000 else s.axes[a] := rfl
    have work : s.axisWork a .rehand = if s.owesSteps a then s.handTarget a s.engine.holdTargets[a] 50000
        else s.followingCheck a := rfl
    rw [axis, work]
    split
    · exact (AxisWorked.handTarget hs a s.engine.holdTargets[a] 50000).congr checked.symm
    · exact (AxisWorked.followingCheck hs a).congr checked.symm

section
variable {halts : Prop} {s t u : State} {axes : Vector AxisChannel 4} {holds : Vector Int 4} {b : Fin 4}
  (h : Alarmed halts (s.withOutputs axes holds s.levels s.cues) t) (hx : axes[b] = s.axes[b])
include h hx

/-- Work at other channels leaves what a channel takes of its own. -/
theorem State.workedAxis_of_outputs (hh : holds[b] = s.engine.holdTargets[b]) (w : AxisWork) :
    t.workedAxis b w = s.workedAxis b w := by
  have axis : t.axes[b] = s.axes[b] := by rw [h.axes]; exact hx
  have hold : t.engine.holdTargets[b] = s.engine.holdTargets[b] := by rw [h.holdTargets]; exact hh
  have takes (target : Int) : t.channelTakes b target 50000 = s.channelTakes b target 50000 := by
    rw [State.channelTakes_of_alarmed h]
    simp only [State.channelTakes, State.withOutputs, hx]
  have owes : t.owesSteps b = s.owesSteps b := by
    have now : t.now = s.now := h.now
    rw [State.owesSteps, axis, hold, now]
    rfl
  cases w with
  | skip => exact axis
  | check => exact axis
  | hand target => exact takes target
  | again => exact (congrArg (t.channelTakes b · 50000) hold).trans (takes _)
  | rehand =>
    show (if t.owesSteps b then t.channelTakes b t.engine.holdTargets[b] 50000 else t.axes[b]) = _
    rw [owes, hold, takes, axis]
    rfl

theorem State.checksBadly_of_outputs : t.checksBadly b ↔ s.checksBadly b := by
  have axis : t.axes[b] = s.axes[b] := by rw [h.axes]; exact hx
  have now : t.now = s.now := h.now
  have store : t.store = s.store := h.store
  refine and_congr h.checks ?_
  simp only [State.followsBadly, axis, store, now]

end

/-- Work at one channel before the work at the others. -/
theorem Worked.cons {a : Fin 4} {v : AxisWork} {w : Fin 4 → AxisWork} {s t u : State}
    (h : AxisWorked a (s.workedAxis a v) (v.holds s.engine.holdTargets[a]) (v.checks ∧ s.checksBadly a) s t)
    (k : Worked w t u) (hw : w a = .skip) : Worked (Function.update w a v) s u := by
  have otherAxis (b : Fin 4) (hb : b ≠ a) : (s.axes.set a (s.workedAxis a v))[b] = s.axes[b] :=
    Vector.getElem_set_ne _ _ fun h => hb (Fin.ext h.symm)
  have otherHold (b : Fin 4) (hb : b ≠ a) :
      (s.engine.holdTargets.set a (v.holds s.engine.holdTargets[a]))[b] = s.engine.holdTargets[b] :=
    Vector.getElem_set_ne _ _ fun h => hb (Fin.ext h.symm)
  have tHolds := h.alarmed.holdTargets
  have astray : (∃ b, (Function.update w a v b).checks ∧ s.checksBadly b) ↔
      (v.checks ∧ s.checksBadly a) ∨ ∃ b, (w b).checks ∧ t.checksBadly b := by
    constructor
    · rintro ⟨b, checks, bad⟩
      by_cases hb : b = a
      · subst hb
        rw [Function.update_self] at checks
        exact .inl ⟨checks, bad⟩
      · rw [Function.update_of_ne hb] at checks
        exact .inr ⟨b, checks, (State.checksBadly_of_outputs h.alarmed (otherAxis b hb)).2 bad⟩
    · rintro (⟨checks, bad⟩ | ⟨b, checks, bad⟩)
      · exact ⟨a, by rwa [Function.update_self], bad⟩
      · have hb : b ≠ a := by
          rintro rfl
          rw [hw] at checks
          exact checks
        exact ⟨b, by rwa [Function.update_of_ne hb],
          (State.checksBadly_of_outputs h.alarmed (otherAxis b hb)).1 bad⟩
  refine ⟨?_, k.evalMarks.trans h.evalMarks, fun b => ?_, fun b => ?_, ?_, fun b hb => ?_⟩
  · have outputs := h.alarmed.withOutputs u.axes u.engine.holdTargets s.levels
    have later := k.alarmed
    rw [h.alarmed.levels] at later
    exact (outputs.trans later).congr astray.symm
  · rw [k.axes]
    by_cases hb : b = a
    · subst hb
      rw [hw, Function.update_self]
      show t.axes[b] = _
      rw [h.alarmed.axes]
      exact Vector.getElem_set_self ..
    · rw [Function.update_of_ne hb]
      exact State.workedAxis_of_outputs h.alarmed (otherAxis b hb) (otherHold b hb) _
  · rw [k.holds, tHolds]
    by_cases hb : b = a
    · subst hb
      rw [hw, Function.update_self]
      exact Vector.getElem_set_self ..
    · rw [Function.update_of_ne hb]
      exact congrArg (fun x => (w b).holds x) (otherHold b hb)
  · rw [k.following, h.following, astray, or_assoc]
  · by_cases hba : b = a
    · subst hba
      rw [Function.update_self] at hb
      exact k.alarmed.sets 2 b (h.set hb)
    · rw [Function.update_of_ne hba] at hb
      exact k.set b ⟨hb.1, (State.checksBadly_of_outputs h.alarmed (otherAxis b hba)).2 hb.2⟩

/-- The work at the axes listed, in their order. -/
theorem Worked.foldl_list (w : Fin 4 → AxisWork) {axes : List (Fin 4)} (hn : axes.Nodup) {s : State}
    (hs : s.OffPass) : Worked (fun a => if a ∈ axes then w a else .skip) s
      (axes.foldl (fun s a => s.axisWork a (w a)) s) := by
  induction axes generalizing s with
  | nil =>
    refine ⟨(Alarmed.refl s).congr ?_, rfl, fun a => rfl, fun a => rfl, ?_, fun a h => ?_⟩
    all_goals simp_all [AxisWork.checks]
  | cons a axes ih =>
    obtain ⟨ha, hn⟩ := List.nodup_cons.1 hn
    have first := AxisWorked.axisWork hs a (w a)
    have offPass : (s.axisWork a (w a)).OffPass := first.alarmed.offPass ⟨hs.outside, hs.defaults⟩
    have update : (fun b => if b ∈ a :: axes then w b else .skip) =
        Function.update (fun b => if b ∈ axes then w b else .skip) a (w a) := by
      funext b
      by_cases hb : b = a
      · subst hb
        simp
      · simp [hb]
    rw [List.foldl_cons, update]
    exact .cons first (ih hn offPass) (if_neg ha)

theorem Worked.foldl (w : Fin 4 → AxisWork) {s : State} (hs : s.OffPass) :
    Worked w s (axisOrder.foldl (fun s a => s.axisWork a (w a)) s) := by
  have done := Worked.foldl_list w (axes := axisOrder) (by decide) hs
  have all : (fun a => if a ∈ axisOrder then w a else .skip) = w := funext fun a => if_pos (mem_axisOrder a)
  rwa [all] at done

/-! ## The channels' readings after the work -/

theorem State.channelTakes_sensed (a : Fin 4) (target : Int) (duration : Nat) (s : State) :
    (s.channelTakes a target duration).sensed = s.axes[a].sensed := by
  unfold State.channelTakes
  dsimp only
  split
  · rfl
  · rw [Supervision.suppressed_sensed, AxisChannel.replacePlan_sensed, AxisChannel.countDeficit_sensed]

theorem State.workedAxis_sensed (a : Fin 4) (w : AxisWork) (s : State) :
    (s.workedAxis a w).sensed = s.axes[a].sensed := by
  cases w with
  | skip => rfl
  | check => rfl
  | hand target => exact s.channelTakes_sensed ..
  | again => exact s.channelTakes_sensed ..
  | rehand =>
    show (if s.owesSteps a then s.channelTakes a s.engine.holdTargets[a] 50000 else s.axes[a]).sensed = _
    split
    · exact s.channelTakes_sensed ..
    · rfl

/-- Outside a pass the claims' `handed` is what the channel takes. -/
theorem State.OffPass.handed {s : State} (hs : s.OffPass) (a : Fin 4) (target : Int) (duration : Nat) :
    s.handed a target duration = s.channelTakes a target duration := by
  have handed := AxisWorked.handTarget hs a target duration
  have axes : (s.handTarget a target duration).axes = s.axes.set a (s.channelTakes a target duration) :=
    handed.alarmed.axes
  rw [State.handed, axes]
  exact Vector.getElem_set_self ..

theorem State.owesSteps_iff {s : State} {a : Fin 4} :
    s.owesSteps a = true ↔ s.axes[a].commandedAt s.now ≠ s.engine.holdTargets[a] := bne_iff_ne

theorem State.OffPass.rehanded {s : State} (hs : s.OffPass) (a : Fin 4) :
    s.rehanded a = s.workedAxis a .rehand := by
  show s.rehanded a = if s.owesSteps a then s.channelTakes a s.engine.holdTargets[a] 50000 else s.axes[a]
  rw [State.rehanded, hs.handed]
  by_cases h : s.axes[a].commandedAt s.now = s.engine.holdTargets[a]
  · rw [if_pos h, if_neg (by rw [State.owesSteps_iff]; exact not_not.2 h)]
  · rw [if_neg h, if_pos (State.owesSteps_iff.2 h)]

end Sys2Proof.Machine
end

section
/-! PROOFS. The slew tick outside slews, and the parts of which the slews' own ticks are made (R91, R92, R95, R101,
R146). -/

namespace Sys2Proof.Machine

/-! ## The tick (R49, R101) -/

/-- The state in which a slew tick does its work. -/
def State.slewTicked (s : State) : State :=
  { s with
    now := max s.now (s.clock.slewStart + 50000)
    clock := { s.clock with slewStart := s.clock.slewStart + 50000 } }

theorem exec_slewTick (s : State) : exec .slewTick s = .next s.slewTicked.slewWork := rfl

/-- Work without a halt takes nothing from a node that no halting cause changes. -/
theorem Alarmed.engine_of_unalarmed {halts : Prop} {s t : State} (h : Alarmed halts s t)
    (hn : s.engine.nodeState.unalarmed = true) : t.engine = s.engine := by
  by_cases hh : halts
  · exact (h.halted hh).trans (Engine.alarmed_of_unalarmed hn _)
  · exact (h.calm hh).1

/-! ## Channels that are handed their hold targets again -/

/-- Channel `a` with `hold` its hold target, after a slew tick that gives it no new one (R101). -/
def State.standing (a : Fin 4) (hold : Int) (s : State) : AxisChannel :=
  if s.axes[a].commandedAt s.now = hold then s.axes[a] else s.channelTakes a hold 50000

theorem State.OffPass.rehanded_eq {s : State} (hs : s.OffPass) (a : Fin 4) :
    s.rehanded a = s.standing a s.engine.holdTargets[a] := by
  rw [State.rehanded, hs.handed]
  rfl

theorem State.workedAxis_rehand {s : State} (hs : s.OffPass) (a : Fin 4) :
    s.workedAxis a .rehand = s.standing a s.engine.holdTargets[a] :=
  (hs.rehanded a).symm.trans (hs.rehanded_eq a)

theorem Worked.handAxes (p : Fin 4 → Bool) {s : State} (hs : s.OffPass) :
    Worked (fun a => if p a then .again else .rehand) s (s.handAxes p) := by
  have work : (fun (s : State) a => if p a then s.handTarget a s.engine.holdTargets[a] Config.slewTickClocks
      else s.rehand a) = fun s a => s.axisWork a (if p a then .again else .rehand) := by
    funext s a
    cases p a <;> rfl
  unfold State.handAxes
  rw [work]
  exact .foldl _ hs

theorem Worked.followingChecks {s : State} (hs : s.OffPass) : Worked (fun _ => .check) s s.followingChecks :=
  .foldl _ hs

/-- Work that hands no new target leaves the hold targets. -/
theorem Worked.holdTargets {w : Fin 4 → AxisWork} {s t : State} (h : Worked w s t)
    (hw : ∀ a, (w a).holds s.engine.holdTargets[a] = s.engine.holdTargets[a]) :
    t.engine.holdTargets = s.engine.holdTargets :=
  Vector.ext fun i hi => (h.holds ⟨i, hi⟩).trans (hw ⟨i, hi⟩)

/-! ## What every part of a slew tick leaves -/

/-- The instant, the store, the channels' readings and the inputs stand. -/
structure SlewKeeps (s t : State) : Prop where
  now : t.now = s.now
  store : t.store = s.store
  slewStart : t.clock.slewStart = s.clock.slewStart
  sensed : ∀ a : Fin 4, t.axes[a].sensed = s.axes[a].sensed
  limits : t.sup.limitInForce = s.sup.limitInForce
  dispositions : t.sup.dispositions = s.sup.dispositions

namespace SlewKeeps
variable {s t u : State}

theorem trans (h : SlewKeeps s t) (k : SlewKeeps t u) : SlewKeeps s u where
  now := k.now.trans h.now
  store := k.store.trans h.store
  slewStart := k.slewStart.trans h.slewStart
  sensed a := (k.sensed a).trans (h.sensed a)
  limits := k.limits.trans h.limits
  dispositions := k.dispositions.trans h.dispositions

theorem worked {w : Fin 4 → AxisWork} (h : Worked w s t) : SlewKeeps s t where
  now := h.alarmed.now
  store := h.alarmed.store
  slewStart := h.alarmed.slewStart
  sensed a := by
    rw [h.axes]
    exact s.workedAxis_sensed a (w a)
  limits := congrArg (·.sup.limitInForce) h.alarmed.fixed
  dispositions := congrArg (·.sup.dispositions) h.alarmed.fixed

/-- A change of the engine and of the level channels. -/
theorem withEngine (e : Engine) (ls : Vector LevelChannel 2) (s : State) :
    SlewKeeps s { s with engine := e, levels := ls } :=
  ⟨rfl, rfl, rfl, fun _ => rfl, rfl, rfl⟩

variable (h : SlewKeeps s t)
include h

theorem commanded (a : Fin 4) : t.axes[a].commanded = s.axes[a].commanded := congrArg (·.commanded) (h.sensed a)

theorem commandedAt (a : Fin 4) : t.axes[a].commandedAt t.now = s.axes[a].commandedAt s.now := by
  rw [h.now]
  exact congrArg (·.commandedAt s.now) (h.sensed a)

theorem standsOn (a : Fin 4) (target : Int) : t.standsOn a target ↔ s.standsOn a target := by
  rw [State.standsOn, h.commandedAt, h.limits]

end SlewKeeps

theorem State.settled_iff {s : State} {a : Fin 4} :
    s.settled a = true ↔ s.standsOn a s.engine.holdTargets[a] := by
  simp only [State.settled, State.owesSteps, State.heldByLimit, State.standsOn, Bool.or_eq_true, Bool.and_eq_true,
    decide_eq_true_eq, bne, Bool.not_not, beq_iff_eq, sub_pos, sub_neg]

theorem State.everyAxis_iff {p : Fin 4 → Bool} {test : Fin 4 → State → Bool} {s : State} :
    s.everyAxis p test = true ↔ ∀ a, p a = true → test a s = true := by
  unfold State.everyAxis
  rw [axisOrder_all]
  refine forall_congr' fun a => ?_
  cases p a <;> simp

/-! ## The changes of node state that end a slew -/

/-- What a change of node state leaves, beside what it offers and what the clock and the cue lines make of it. -/
structure Entered (ns : NodeState) (s t : State) : Prop extends SlewKeeps s t where
  engine : t.engine = { s.engine with nodeState := ns, reportStart := t.engine.reportStart }
  axes : t.axes = s.axes
  levels : t.levels = s.levels
  evalMarks : t.evalMarks = s.evalMarks

theorem Entered.enterNode (ns : NodeState) (s : State) : Entered ns s (s.enterNode ns) := by
  have told := Tells.enterNode ns s
  have node : (s.enterNode ns).engine.nodeState = ns := State.enterNode_nodeState ns s
  have clock := s.enterNode_clock_cases ns
  generalize s.enterNode ns = t at told node clock
  have engine : t.engine = { s.engine with nodeState := t.engine.nodeState, reportStart := t.engine.reportStart } :=
    congrArg (·.engine) told.fixed
  have axes : t.axes = s.axes := congrArg (·.axes) told.fixed
  have slewStart : t.clock.slewStart = s.clock.slewStart := by
    rcases clock with ⟨same, -⟩ | ⟨freed, -⟩
    · rw [same]
    · rw [freed]
      rfl
  rw [node] at engine
  exact {
    engine, axes, slewStart
    levels := congrArg (·.levels) told.fixed, evalMarks := congrArg (·.evalMarks) told.fixed
    now := congrArg (·.now) told.fixed, store := congrArg (·.store) told.fixed
    sensed := fun a => by rw [axes]
    limits := congrArg (·.sup.limitInForce) told.fixed
    dispositions := congrArg (·.sup.dispositions) told.fixed }

/-- The completion of a CUE, SEEK or RETURN enters ARMED just where the conditions hold (R92). -/
theorem Entered.enterArmedOrIdle {s : State} (hn : s.engine.nodeState.holdsLocal = false) :
    ∃ ns, Entered ns s s.enterArmedOrIdle ∧ (ns = .idle ∨ ns = .armed) ∧ (ns = .armed ↔ s.armable) := by
  refine ⟨if s.armHolds then .armed else .idle, .enterNode .., ?_, ?_⟩
  · exact (ite_eq_or_eq ..).symm
  · rw [← State.armHolds_iff hn]
    cases s.armHolds <;> decide

/-- The arm conditions read of a slew its path position alone. -/
theorem State.armable_congr {s t : State} (h : t = { s with
      line := { s.line with txQueue := t.line.txQueue }
      clock := t.clock, cues := t.cues, free := t.free, engine := t.engine, axes := t.axes, levels := t.levels
      sup := { s.sup with
        latched := t.sup.latched, notes := t.sup.notes, axisSets := t.sup.axisSets, origins := t.sup.origins
        counters := t.sup.counters, exception := t.sup.exception, exceptionCount := t.sup.exceptionCount } })
    (hc : t.clock.state = s.clock.state ∧ t.clock.lastMark = s.clock.lastMark)
    (hx : ∀ a : Fin 4, t.axes[a].commanded = s.axes[a].commanded) (hp : t.engine.path = s.engine.path) :
    t.armable ↔ s.armable := by
  have holds : t.localHolds = s.localHolds := by
    have alone : t.roster = s.roster := congrArg (·.roster) h
    have store : t.store = s.store := congrArg (·.store) h
    have now : t.now = s.now := congrArg (·.now) h
    rw [State.localHolds, alone, store, now, hc.2]
    rfl
  unfold State.armable
  rw [holds, hc.1, hp]
  simp only [hx]
  rw [h]
  exact Iff.rfl

/-! ## Following checks behind the end of a slew -/

/-- From `s` to `t` the node has entered `ns`, and following checks have been made, which may disarm it. -/
structure CheckedEnd (ns : NodeState) (s t : State) : Prop extends SlewKeeps s t where
  axes : t.axes = s.axes
  levels : t.levels = s.levels
  holds : t.engine.holdTargets = s.engine.holdTargets
  slew : t.engine.slew = s.engine.slew
  unarmed : ns ≠ .armed → t.engine.nodeState = ns ∧ t.engine.path = s.engine.path
  armed : ns = .armed → t.engine.nodeState = .idle ∨ t.engine.nodeState = .armed
  armed_iff : t.engine.nodeState = .armed ↔ ns = .armed ∧ ∀ a, ¬ s.followsBadly a
  path : t.engine.path = s.engine.path ∨ t.engine.path = { s.engine.path with onPath := false } ∧
    t.engine.nodeState = .idle ∧ ∃ a, s.followsBadly a

theorem CheckedEnd.followingChecks {ns : NodeState} {s z : State} (hz : Entered ns s z) (hd : s.defaults)
    (hn : ns = .idle ∨ ns = .armed ∨ ns = .halted) : CheckedEnd ns s z.followingChecks := by
  have node : z.engine.nodeState = ns := by rw [hz.engine]
  have outside : z.OffPass := ⟨by rw [node]; rcases hn with rfl | rfl | rfl <;> rfl, hz.dispositions.trans hd⟩
  have work := Worked.followingChecks outside
  generalize z.followingChecks = t at work
  have axes : t.axes = z.axes := Vector.ext fun i hi => work.axes ⟨i, hi⟩
  have holds : t.engine.holdTargets = z.engine.holdTargets := work.holdTargets fun _ => rfl
  have alarmed := work.alarmed
  have outputs : z.withOutputs t.axes t.engine.holdTargets z.levels z.cues = z := by rw [axes, holds]; rfl
  rw [outputs] at alarmed
  have astray : (∃ a, AxisWork.check.checks ∧ z.checksBadly a) ↔ ∃ a, s.followsBadly a := by
    have active : z.checks := by rw [State.checks, node]; rcases hn with rfl | rfl | rfl <;> decide
    refine exists_congr fun a => ((and_iff_right trivial).trans (and_iff_right active)).trans ?_
    simp only [State.followsBadly, hz.axes, hz.store, hz.now]
  have alarmed := alarmed.congr astray
  have keeps := hz.toSlewKeeps.trans (.worked work)
  have ended (engine : t.engine = z.engine) (iff : ns = .armed ↔ ns = .armed ∧ ∀ a, ¬ s.followsBadly a) :
      CheckedEnd ns s t := by
    have node : t.engine.nodeState = ns := by rw [engine, node]
    have path : t.engine.path = s.engine.path := by rw [engine, hz.engine]
    exact { keeps with
      axes := axes.trans hz.axes, levels := alarmed.levels.trans hz.levels
      holds := by rw [engine, hz.engine]
      slew := by rw [engine, hz.engine]
      unarmed := fun _ => ⟨node, path⟩, armed := fun ha => .inr (node.trans ha)
      armed_iff := by rw [node]; exact iff
      path := .inl path }
  by_cases hb : ∃ a, s.followsBadly a
  · by_cases ha : ns = .armed
    · have engine := (alarmed.halted hb).trans (Engine.alarmed_armed (.inl (node.trans ha)) _)
      have idle : t.engine.nodeState = .idle := congrArg (·.nodeState) engine
      have path : t.engine.path = { z.engine.path with onPath := false } := congrArg (·.path) engine
      exact { keeps with
        axes := axes.trans hz.axes, levels := alarmed.levels.trans hz.levels
        holds := holds.trans (by rw [hz.engine])
        slew := (congrArg (·.slew) engine).trans (by rw [hz.engine])
        unarmed := fun h => absurd ha h, armed := fun _ => .inl idle
        armed_iff := by simp [idle, ha, hb]
        path := .inr ⟨by rw [path, hz.engine], idle, hb⟩ }
    · have unalarmed : z.engine.nodeState.unalarmed = true := by
        rw [node]
        rcases hn with rfl | rfl | rfl
        · rfl
        · exact absurd rfl ha
        · rfl
      exact ended (alarmed.engine_of_unalarmed unalarmed) (by simp [ha])
  · exact ended (alarmed.calm hb).1 (and_iff_left (not_exists.1 hb)).symm

/-! ## STOPPED and the states at rest (R101, R146) -/

/-- In STOPPED a halting cause is latched and does nothing more. -/
theorem State.followingChecks_stopped {s : State} (hd : s.defaults) (hn : s.engine.nodeState = .stopped) :
    s.followingChecks = { s with sup := s.followingChecks.sup } := by
  have step (a : Fin 4) {t : State} (ht : t.sup.dispositions = defaultDispositions)
      (hn : t.engine.nodeState = .stopped) : t.followingCheck a = { t with sup := (t.followingCheck a).sup } ∧
        (t.followingCheck a).sup.dispositions = defaultDispositions := by
    rcases State.followingCheck_cases (s := t) a with h | h <;> rw [h]
    · exact ⟨rfl, ht⟩
    · have latched : t.raise .followingError (some a) none = t.latch .followingError (some a) none := by
        rw [State.raise_haltRig _ _ (State.disposition_of_defaults ht), State.haltRig]
        simp [State.latch, hn]
      rw [latched]
      exact ⟨rfl, (congrArg (·.dispositions) (Supervision.latch_eq ..)).trans ht⟩
  unfold State.followingChecks
  have all (axes : List (Fin 4)) : ∀ t : State, t.sup.dispositions = defaultDispositions →
      t.engine.nodeState = .stopped → axes.foldl (fun s a => s.followingCheck a) t =
        { t with sup := (axes.foldl (fun s a => s.followingCheck a) t).sup } := by
    induction axes with
    | nil => exact fun t _ _ => rfl
    | cons a axes ih =>
      intro t ht hn
      obtain ⟨checked, kept⟩ := step a ht hn
      have node : (t.followingCheck a).engine.nodeState = .stopped := by rw [checked]; exact hn
      have rest := ih (t.followingCheck a) kept node
      rw [List.foldl_cons]
      generalize axes.foldl (fun s a => s.followingCheck a) (t.followingCheck a) = u at rest
      rw [checked] at rest
      exact rest
  exact all axisOrder s hd hn

end Sys2Proof.Machine
end

section
/-! PROOFS. The slew ticks of axis slews and of returns, part by part (R95, R100, R126, R127). -/

namespace Sys2Proof.Machine

/-! ## Axis slews (R95, R126) -/

section
variable {s : State} {kind : AxisSlewKind} {tPark scale : Nat} {moved : Vector (Option Quantity) 4}

theorem moveAll_getElem (f : Quantity → Quantity) (moved : Vector (Option Quantity) 4) (a : Fin 4) :
    (moveAll f moved)[a] = moved[a].map f := by simp [moveAll]

/-- Every demand has come to its destination. -/
def DemandsStill (moved : Vector (Option Quantity) 4) : Prop :=
  ∀ (a : Fin 4) (q : Quantity), moved[a] = some q → q.distance = 0

theorem demandsStill_iff :
    (axisOrder.all fun a => (moved[a].map Quantity.distance).getD 0 == 0) = true ↔ DemandsStill moved := by
  rw [axisOrder_all]
  refine forall_congr' fun a => ?_
  cases moved[a] <;> simp

/-- The hold target that axis `a` has once the step targets are formed. -/
def State.aims (p : Fin 4 → Bool) (moved : Vector (Option Quantity) 4) (s : State) (a : Fin 4) : Int :=
  match moved[a] with
  | some q => if p a then q.stepTarget else s.engine.holdTargets[a]
  | none => s.engine.holdTargets[a]

theorem State.aims_none {p : Fin 4 → Bool} {a : Fin 4} (h : moved[a] = none) :
    s.aims p moved a = s.engine.holdTargets[a] := by simp [State.aims, h]

theorem State.aims_some {p : Fin 4 → Bool} {a : Fin 4} {q : Quantity} (h : moved[a] = some q) :
    s.aims p moved a = if p a then q.stepTarget else s.engine.holdTargets[a] := by simp [State.aims, h]

theorem State.formTargets_eq (p : Fin 4 → Bool) (moved : Vector (Option Quantity) 4) (s : State) :
    s.formTargets p moved = s.onEngine fun e => { e with holdTargets := Vector.ofFn (s.aims p moved) } := rfl

/-- The slew record takes `next`, the step targets are formed where `p` says, and every axis is handed. -/
def State.slewHanded (kind : AxisSlewKind) (tPark scale : Nat) (next : Vector (Option Quantity) 4) (decel : Bool)
    (p given : Fin 4 → Bool) (s : State) : State :=
  ((s.onEngine fun e => { e with slew := some (.axes kind tPark scale next decel) }).formTargets p
    next).handAxes given

/-- A tick with a demand still under way moves every demand, and hands its step target. -/
theorem State.axisSlewTick_moving (h : ¬ DemandsStill moved) : s.axisSlewTick kind tPark scale moved =
    s.slewHanded kind tPark scale (moveAll Quantity.advance moved) false (fun a => moved[a].isSome)
      fun a => moved[a].isSome :=
  if_neg (mt demandsStill_iff.1 h)

/-- Every axis of the slew stands on its step target. -/
def State.arrived (moved : Vector (Option Quantity) 4) (s : State) : Prop :=
  ∀ (a : Fin 4) (q : Quantity), moved[a] = some q → s.axes[a].commandedAt s.now = q.stepTarget

theorem State.arrived_iff : ((s.formTargets (fun a => moved[a].isSome) moved).everyAxis (fun a => moved[a].isSome)
    fun a s => !s.owesSteps a) = true ↔ s.arrived moved := by
  rw [State.everyAxis_iff]
  refine forall_congr' fun a => ?_
  rw [Bool.not_eq_true', Bool.eq_false_iff, Ne, State.owesSteps_iff, not_not]
  have hold : (s.formTargets (fun a => moved[a].isSome) moved).engine.holdTargets[a] =
      s.aims (fun a => moved[a].isSome) moved a := by simp [State.formTargets_eq]
  rw [hold]
  cases hm : moved[a] with
  | none => simp
  | some q =>
    rw [State.aims_some hm, if_pos (by rw [hm]; rfl)]
    simp only [Option.isSome_some, forall_const, Option.some.injEq, forall_eq']
    exact Iff.rfl

theorem State.axisSlewTick_still (hs : s.engine.slew = some (.axes kind tPark scale moved false))
    (h : DemandsStill moved) : s.axisSlewTick kind tPark scale moved =
    if (s.formTargets (fun a => moved[a].isSome) moved).everyAxis (fun a => moved[a].isSome)
        (fun a s => !s.owesSteps a) then
      ((s.formTargets (fun a => moved[a].isSome) moved).completeAxes kind tPark scale).followingChecks
    else
      let t := s.slewHanded kind tPark scale moved false (fun a => moved[a].isSome) fun _ => false
      if t.everyAxis (fun a => moved[a].isSome) State.settled then t.restAxes else t := by
  have held : (s.onEngine fun e => { e with slew := some (.axes kind tPark scale moved false) }) = s := by
    rw [← hs]
    rfl
  unfold State.slewHanded
  rw [held]
  exact if_pos (demandsStill_iff.2 h)

/-- The axes that a decelerating tick gives a new step target. -/
def changedBy (f : Quantity → Quantity) (moved : Vector (Option Quantity) 4) (a : Fin 4) : Bool :=
  moved[a].map Quantity.value != (moveAll f moved)[a].map Quantity.value

theorem changedBy_eq_false {f : Quantity → Quantity} {a : Fin 4} :
    changedBy f moved a = false ↔ ∀ q, moved[a] = some q → (f q).value = q.value := by
  rw [changedBy, moveAll_getElem]
  cases moved[a] with
  | none => simp
  | some q =>
    simp only [Option.map_some, bne_eq_false_iff_eq, Option.some.injEq, forall_eq']
    exact eq_comm

theorem State.brakeSlewTick_eq : s.brakeSlewTick kind tPark scale moved =
    let t := s.slewHanded kind tPark scale (moveAll Quantity.brake moved) true (changedBy Quantity.brake moved)
      (changedBy Quantity.brake moved)
    if t.everyAxis (fun a => (moveAll Quantity.brake moved)[a].isSome) (fun a s =>
        ((moveAll Quantity.brake moved)[a].map Quantity.velocity).getD 0 == 0 && s.settled a) then t.restAxes
    else t := rfl

end

/-- A CUE or SEEK completes on-path at its T, with the levels there; a JOG leaves the path and the levels. -/
theorem State.completeAxes_jog (tPark scale : Nat) (s : State) :
    Entered .idle (s.onEngine fun e => { e with slew := none }) (s.completeAxes .jog tPark scale) := .enterNode ..

/-- The state in which the arm conditions are judged at the completion of a CUE, SEEK or RETURN. -/
def State.parkedAt (tPark scale : Nat) (ls : Vector LevelChannel 2) (s : State) : State :=
  { s with
    levels := ls
    engine := { s.engine with slew := none, path := { onPath := true, tPark := tPark, scale := scale } } }

theorem State.completeAxes_onPath {kind : AxisSlewKind} (hk : kind ≠ .jog) {s : State}
    (hn : s.engine.nodeState.holdsLocal = false) (tPark scale : Nat) :
    ∃ ns ls, Entered ns (s.parkedAt tPark scale ls) (s.completeAxes kind tPark scale) ∧
      s.levelsTaken tPark { s with levels := ls } ∧ (ns = .idle ∨ ns = .armed) ∧
      (ns = .armed ↔ (s.parkedAt tPark scale ls).armable) := by
  obtain ⟨ls, taken, levels⟩ :=
    ((s.onEngine fun e => { e with slew := none }).onPathAt tPark scale).evaluateLevels_taken tPark
  have done : s.completeAxes kind tPark scale = (s.parkedAt tPark scale ls).enterArmedOrIdle := by
    have parked : s.completeAxes kind tPark scale =
        (((s.onEngine fun e => { e with slew := none }).onPathAt tPark scale).evaluateLevels
          tPark).enterArmedOrIdle := by
      cases kind with
      | cue => rfl
      | seek => rfl
      | jog => exact absurd rfl hk
    rw [parked, taken]
    rfl
  obtain ⟨ns, entered, either, iff⟩ := Entered.enterArmedOrIdle (s := s.parkedAt tPark scale ls) hn
  rw [done]
  exact ⟨ns, ls, entered, levels, either, iff⟩

/-- A slew that comes to rest holds every axis where it stands. -/
theorem State.restAxes_entered (s : State) : Entered .idle { s with engine := { s.engine with
    slew := none, holdTargets := Vector.ofFn fun a => s.axes[a].commanded.toInt } } s.restAxes := .enterNode ..

/-! ## Returns (R100, R127) -/

theorem State.completeReturn_spec {s : State} (hn : s.engine.nodeState.holdsLocal = false) :
    ∃ ns, Entered ns (s.parkedAt 0 s.engine.path.scale s.levels) s.completeReturn ∧ (ns = .idle ∨ ns = .armed) ∧
      (ns = .armed ↔ (s.parkedAt 0 s.engine.path.scale s.levels).armable) :=
  Entered.enterArmedOrIdle (s := s.parkedAt 0 s.engine.path.scale s.levels) hn

/-- A return that rests stays on-path at its T, with the levels there. -/
theorem State.restReturn_spec (s : State) : ∃ ls,
    Entered .halted { s with
      levels := ls
      engine := { s.engine with
        slew := none, holdTargets := Vector.ofFn fun a => s.axes[a].commanded.toInt
        path := { onPath := true, tPark := s.engine.moveTime, scale := s.engine.path.scale } } } s.restReturn ∧
    s.levelsTaken s.engine.moveTime { s with levels := ls } := by
  obtain ⟨ls, taken, levels⟩ :=
    (s.holdAtCommanded.onPathAt s.engine.moveTime s.engine.path.scale).evaluateLevels_taken s.engine.moveTime
  refine ⟨ls, ?_, levels⟩
  have rests : s.restReturn = ((((s.holdAtCommanded.onPathAt s.engine.moveTime s.engine.path.scale).evaluateLevels
    s.engine.moveTime).onEngine fun e => { e with slew := none }).enterNode .halted) := rfl
  rw [rests, taken]
  exact .enterNode ..

/-- Every enabled axis has reached its hold target. -/
def State.returned (s : State) : Prop :=
  ∀ a, s.store.axisPlays a = true → s.axes[a].commandedAt s.now = s.engine.holdTargets[a]

/-- Every enabled axis has reached its hold target, or is held by a limit input. -/
def State.restsEnabled (s : State) : Prop :=
  ∀ a, s.store.axisPlays a = true → s.standsOn a s.engine.holdTargets[a]

theorem State.restsEnabled_iff {s : State} : s.everyEnabled State.settled = true ↔ s.restsEnabled :=
  State.everyAxis_iff.trans (forall_congr' fun _ => imp_congr_right fun _ => State.settled_iff)

theorem State.finishReturn_cases (s : State) :
    s.returned ∧ s.finishReturn = some s.completeReturn ∨
    ¬ s.returned ∧ s.restsEnabled ∧ s.finishReturn = some s.restReturn ∨
    ¬ s.restsEnabled ∧ s.finishReturn = none := by
  have returned : (s.everyEnabled fun a s => !s.owesSteps a) = true ↔ s.returned := by
    refine State.everyAxis_iff.trans (forall_congr' fun a => imp_congr_right fun _ => ?_)
    rw [Bool.not_eq_true', Bool.eq_false_iff, Ne, State.owesSteps_iff, not_not]
  unfold State.finishReturn
  split
  next hr => exact .inl ⟨returned.1 hr, rfl⟩
  next hr =>
    split
    next hs => exact .inr (.inl ⟨mt returned.2 hr, State.restsEnabled_iff.1 hs, rfl⟩)
    next hs => exact .inr (.inr ⟨mt State.restsEnabled_iff.2 hs, rfl⟩)

/-- Levels taken twice at one move time. -/
theorem State.levelsTaken_trans {s t u : State} {n : Nat} (hs : t.store = s.store) (h : s.levelsTaken n t)
    (k : t.levelsTaken n u) : s.levelsTaken n u := by
  intro l
  obtain ⟨taken, kept⟩ := h l
  obtain ⟨taken', kept'⟩ := k l
  rw [hs] at taken' kept'
  refine ⟨fun v hv => ?_, fun hv => (kept' hv).trans (kept hv)⟩
  obtain ⟨level, source, duty, supply⟩ := taken' v hv
  obtain ⟨-, -, duty₀, supply₀⟩ := taken v hv
  exact ⟨level, source, duty.trans duty₀, supply.trans supply₀⟩

/-- From `s` to `t` a return has evaluated `evs`, raised what they raise, and handed their targets. -/
structure ReturnWorked (evs : Fin 4 → Option AxisEval) (count : Nat) (s t : State) : Prop
    extends SlewKeeps s t where
  alarmed : Alarmed (∃ a ev, evs a = some ev ∧ (ev.clamped = true ∨ s.checksBadly a))
    (s.withOutputs t.axes t.engine.holdTargets s.levels s.cues) t
  taken : EvalMarks.Taken .slew count (exceptionsOf evs axisOrder) (clampsOf evs axisOrder) s.evalMarks t.evalMarks
  handed : ∀ a ev, evs a = some ev → t.axes[a] = s.channelTakes a ev.target 50000
  others : ∀ a, evs a = none → t.axes[a] = s.axes[a]
  holds : ∀ a : Fin 4, t.engine.holdTargets[a] = ((evs a).map AxisEval.target).getD s.engine.holdTargets[a]

/-- The work of an axis in a return: its target handed where the evaluation gives one. -/
def AxisWork.ofEval : Option AxisEval → AxisWork
  | some ev => .hand ev.target
  | none => .skip

theorem ReturnWorked.returnWork {s : State} (hs : s.OffPass) (t count : Nat) :
    ReturnWorked (s.store.evalAxis t s.engine.path.scale) count s (s.returnWork t count) := by
  have eval (a : Fin 4) : (s.store.evalAxes t s.engine.path.scale)[a] = s.store.evalAxis t s.engine.path.scale a := by
    simp [MoveStore.evalAxes]
  have raised := ReturnEvaluated.raiseEval hs (s.store.evalAxes t s.engine.path.scale) count
  simp only [eval] at raised
  have work : s.returnWork t count = axisOrder.foldl
      (fun s' a => s'.axisWork a (.ofEval (s.store.evalAxis t s.engine.path.scale a)))
      (s.raiseEval (s.store.evalAxes t s.engine.path.scale) .slew count) := by
    unfold State.returnWork
    refine congrArg (fun f => axisOrder.foldl f _) (funext fun s' => funext fun a => ?_)
    rw [eval]
    cases s.store.evalAxis t s.engine.path.scale a <;> rfl
  have alarmed := raised.alarmed
  have worked := Worked.foldl (fun a => .ofEval (s.store.evalAxis t s.engine.path.scale a)) (alarmed.offPass hs)
  rw [← work] at worked
  generalize s.returnWork t count = u at worked
  generalize s.raiseEval (s.store.evalAxes t s.engine.path.scale) .slew count = r at raised alarmed worked
  generalize s.store.evalAxis t s.engine.path.scale = evs at raised alarmed worked
  have same : Alarmed (clampsOf evs axisOrder ≠ []) (s.withOutputs s.axes s.engine.holdTargets s.levels s.cues) r :=
    alarmed
  have keeps : SlewKeeps s r :=
    ⟨alarmed.now, alarmed.store, alarmed.slewStart, fun a => by rw [alarmed.axes],
      congrArg (·.sup.limitInForce) alarmed.fixed, congrArg (·.sup.dispositions) alarmed.fixed⟩
  refine ⟨keeps.trans (.worked worked), ?_, worked.evalMarks ▸ raised.taken, fun a ev he => ?_, fun a he => ?_,
    fun a => ?_⟩
  · have outputs := alarmed.withOutputs u.axes u.engine.holdTargets s.levels
    have later := worked.alarmed
    rw [alarmed.levels] at later
    refine (outputs.trans later).congr ⟨?_, ?_⟩
    · rintro (hc | ⟨a, checks, bad⟩)
      · obtain ⟨a, ha⟩ := List.exists_mem_of_ne_nil _ hc
        obtain ⟨ev, he, clamped⟩ := mem_clampsOf.1 ha
        exact ⟨a, ev, he, .inl clamped⟩
      · cases he : evs a with
        | none =>
          rw [he] at checks
          exact checks.elim
        | some ev => exact ⟨a, ev, he, .inr ((State.checksBadly_of_outputs same rfl).1 bad)⟩
    · rintro ⟨a, ev, he, clamped | bad⟩
      · exact .inl (List.ne_nil_of_mem (mem_clampsOf.2 ⟨ev, he, clamped⟩))
      · exact .inr ⟨a, by rw [he]; trivial, (State.checksBadly_of_outputs same rfl).2 bad⟩
  · rw [worked.axes, he]
    exact State.channelTakes_of_alarmed alarmed ..
  · rw [worked.axes, he]
    show r.axes[a] = s.axes[a]
    rw [alarmed.axes]
  · rw [worked.holds, alarmed.holdTargets]
    cases evs a <;> rfl

/-- The levels of a return's slew tick. -/
def State.levelsIf (p : Prop) [Decidable p] (t : Nat) (s : State) : State := if p then s.evaluateLevels t else s

theorem State.levelsIf_taken (p : Prop) [Decidable p] (t : Nat) (s : State) :
    ∃ ls, s.levelsIf p t = { s with levels := ls } ∧ (p → s.levelsTaken t { s with levels := ls }) ∧
      (¬ p → ls = s.levels) := by
  unfold State.levelsIf
  split
  next hp =>
    obtain ⟨ls, taken, levels⟩ := s.evaluateLevels_taken t
    exact ⟨ls, taken, fun _ => levels, fun h => absurd hp h⟩
  next hp => exact ⟨s.levels, rfl, fun h => absurd h hp, fun _ => rfl⟩

section
variable {s : State} {q : Quantity} {count : Nat}

theorem State.returnTick_arrived (h : q.distance = 0) : s.returnTick q count =
    match (s.setReturn q (count + 1) false).finishReturn with
    | some done => done.followingChecks
    | none => axisOrder.foldl (fun s a => if s.store.axisPlays a then s.rehand a else s)
        (s.setReturn q (count + 1) false) := if_pos h

theorem State.returnTick_moving (h : q.distance ≠ 0) : s.returnTick q count =
    let t := (((s.setReturn q.advance (count + 1) false).returnWork q.advance.value.toNat (count + 1)).levelsIf
      ((count + 1) % 16 = 0 ∨ q.advance.distance = 0) q.advance.value.toNat)
    if q.advance.distance = 0 ∧ t.engine.slew = some (.path q.advance (count + 1) false) then t.finishReturn.getD t
    else t := if_neg h

theorem State.brakeReturnTick_eq : s.brakeReturnTick q count =
    let t := (((s.setReturn q.brake (count + 1) true).returnWork q.brake.value.toNat (count + 1)).levelsIf
      ((count + 1) % 16 = 0) q.brake.value.toNat)
    if q.brake.velocity = 0 ∧ t.everyEnabled State.settled then t.restReturn else t := rfl

end

/-! ## The tick by node state (R101) -/

section
variable {s : State}

theorem State.slewWork_inPass (h : s.engine.nodeState.inPass = true) : s.slewWork = s := by
  unfold State.slewWork
  cases hn : s.engine.nodeState <;> simp [hn, NodeState.inPass] at h ⊢

theorem State.slewWork_stopped (h : s.engine.nodeState = .stopped) : s.slewWork = s.followingChecks := by
  simp only [State.slewWork, h]

theorem State.slewWork_rest (h : s.engine.nodeState ∈ [NodeState.idle, .armed, .pending, .halted, .ended, .loading,
    .settling, .excluded]) : s.slewWork = s.handAxes fun _ => false := by
  unfold State.slewWork
  cases hn : s.engine.nodeState <;> simp [hn] at h ⊢

theorem State.slewWork_axes (h : s.engine.nodeState = .slewing) {kind : AxisSlewKind} {tPark scale : Nat}
    {moved : Vector (Option Quantity) 4} {decel : Bool}
    (hs : s.engine.slew = some (.axes kind tPark scale moved decel)) : s.slewWork =
      if decel then s.brakeSlewTick kind tPark scale moved else s.axisSlewTick kind tPark scale moved := by
  cases decel <;> simp [State.slewWork, h, hs]

theorem State.slewWork_path (h : s.engine.nodeState = .returning) {q : Quantity} {count : Nat} {decel : Bool}
    (hs : s.engine.slew = some (.path q count decel)) : s.slewWork =
      if decel then s.brakeReturnTick q count else s.returnTick q count := by
  cases decel <;> simp [State.slewWork, h, hs]

end

end Sys2Proof.Machine
end

section
/-! PROOFS. Slew ticks in every node state (R49, R94 to R101, R126, R127; O43). -/

namespace Sys2Proof.Machine

/-! ## The engine of a slew under way -/

/-- A halting cause turns a slew into a decelerating one, and changes nothing else of it (R126, R127). -/
theorem Alarmed.slewEngine {halts : Prop} {axes : Vector AxisChannel 4} {holds : Vector Int 4}
    {ls : Vector LevelChannel 2} {cs : Vector CueLine 8} {s t : State}
    (h : Alarmed halts (s.withOutputs axes holds ls cs) t)
    (hn : s.engine.nodeState = .slewing ∨ s.engine.nodeState = .returning) :
    t.engine = { s.engine with holdTargets := holds, slew := t.engine.slew } ∧
    (halts → t.engine.slew = s.engine.slew.map Slew.decelerate) ∧ (¬ halts → t.engine.slew = s.engine.slew) := by
  have node : (s.withOutputs axes holds ls cs).engine.nodeState = .slewing ∨
    (s.withOutputs axes holds ls cs).engine.nodeState = .returning := hn
  by_cases hh : halts
  · have engine := (h.halted hh).trans (Engine.alarmed_slewing node _)
    have slew : t.engine.slew = s.engine.slew.map Slew.decelerate := congrArg (·.slew) engine
    refine ⟨?_, fun _ => slew, fun h => absurd hh h⟩
    rw [slew]
    exact engine
  · have engine := (h.calm hh).1
    have slew : t.engine.slew = s.engine.slew := congrArg (·.slew) engine
    refine ⟨?_, fun h => absurd h hh, fun _ => slew⟩
    rw [slew]
    exact engine

theorem State.checksBadly_slewing {s : State} (hn : s.engine.nodeState = .slewing ∨ s.engine.nodeState = .returning)
    (a : Fin 4) : s.checksBadly a ↔ s.followsBadly a := by
  refine and_iff_right ?_
  rcases hn with hn | hn <;> simp [State.checks, hn]

/-! ## Axis slews (R95, R126) -/

/-- From `s` to `t` an axis slew's record has become `next`, its step targets have been formed where `formed` says,
and every axis has been handed: as a new target where `given` says. -/
structure SlewHanded (kind : AxisSlewKind) (tPark scale : Nat) (next : Vector (Option Quantity) 4) (decel : Bool)
    (formed given : Fin 4 → Bool) (s t : State) : Prop extends SlewKeeps s t where
  node : t.engine.nodeState = .slewing
  path : t.engine.path = s.engine.path
  levels : t.levels = s.levels
  slew : ∃ halted, t.engine.slew = some (.axes kind tPark scale next halted) ∧
    (decel = true → halted = true) ∧ (halted = true → decel = true ∨ ∃ a, s.followsBadly a)
  holds : ∀ a : Fin 4, t.engine.holdTargets[a] = s.aims formed next a
  axes : ∀ a : Fin 4, t.axes[a] = if given a then s.channelTakes a (s.aims formed next a) 50000
    else s.standing a (s.aims formed next a)

theorem SlewHanded.slewHanded {s : State} (hs : s.OffPass) (hn : s.engine.nodeState = .slewing) (kind : AxisSlewKind)
    (tPark scale : Nat) (next : Vector (Option Quantity) 4) (decel : Bool) (formed given : Fin 4 → Bool) :
    SlewHanded kind tPark scale next decel formed given s
      (s.slewHanded kind tPark scale next decel formed given) := by
  generalize hy : (s.onEngine fun e => { e with slew := some (.axes kind tPark scale next decel) }).formTargets
    formed next = y
  have offPass : y.OffPass := hy ▸ ⟨hs.outside, hs.defaults⟩
  have node : y.engine.nodeState = .slewing := hy ▸ hn
  have path : y.engine.path = s.engine.path := hy ▸ rfl
  have levels : y.levels = s.levels := hy ▸ rfl
  have keeps : SlewKeeps s y := hy ▸ .withEngine _ s.levels s
  have slew : y.engine.slew = some (.axes kind tPark scale next decel) := hy ▸ rfl
  have aims (a : Fin 4) : y.engine.holdTargets[a] = s.aims formed next a := by
    rw [← hy]
    simp [State.formTargets_eq, State.aims]
  have takes (a : Fin 4) (target : Int) : y.channelTakes a target 50000 = s.channelTakes a target 50000 := hy ▸ rfl
  have stands (a : Fin 4) (hold : Int) : y.standing a hold = s.standing a hold := hy ▸ rfl
  have astray (a : Fin 4) : y.followsBadly a ↔ s.followsBadly a := hy ▸ Iff.rfl
  have run : s.slewHanded kind tPark scale next decel formed given = y.handAxes given := by rw [← hy]; rfl
  have work := Worked.handAxes given offPass
  rw [← run] at work
  generalize s.slewHanded kind tPark scale next decel formed given = u at work
  obtain ⟨engine, halts, runs⟩ := work.alarmed.slewEngine (.inl node)
  refine ⟨keeps.trans (.worked work), ?_, ?_, work.alarmed.levels.trans levels, ?_, fun a => ?_, fun a => ?_⟩
  · rw [engine]
    exact node
  · rw [engine]
    exact path
  · by_cases hb : ∃ a, (if given a then AxisWork.again else AxisWork.rehand).checks ∧ y.checksBadly a
    · refine ⟨true, (halts hb).trans (by rw [slew]; rfl), fun _ => rfl, fun _ => .inr ?_⟩
      obtain ⟨a, -, bad⟩ := hb
      exact ⟨a, (astray a).1 ((State.checksBadly_slewing (.inl node) a).1 bad)⟩
    · exact ⟨decel, (runs hb).trans slew, id, .inl⟩
  · rw [work.holds, ← aims]
    cases given a <;> rfl
  · rw [work.axes, ← aims, ← takes, ← stands]
    cases given a
    · exact State.workedAxis_rehand offPass a
    · rfl

end Sys2Proof.Machine
end

section
/-! PROOFS. The ends of slews at a slew tick (R92, R95, R100, R126, R127). -/

namespace Sys2Proof.Machine

section
variable {s : State} {kind : AxisSlewKind} {tPark scale : Nat} {moved : Vector (Option Quantity) 4}

/-! ## Axis slews -/

/-- The hold target of an axis slew that no halt has taken. -/
theorem State.aims_isSome (moved : Vector (Option Quantity) 4) (s : State) (a : Fin 4) :
    s.aims (fun a => moved[a].isSome) moved a = (moved[a].map Quantity.stepTarget).getD s.engine.holdTargets[a] := by
  cases h : moved[a] with
  | none => exact State.aims_none h
  | some q => exact (State.aims_some h).trans (if_pos (by rw [h]; rfl))

/-- A completed axis slew, up to its following checks (assumption 17). -/
theorem State.completeAxes_checked (hs : s.OffPass) (hn : s.engine.nodeState = .slewing) (kind : AxisSlewKind)
    (tPark scale : Nat) :
    (kind = .jog → CheckedEnd .idle (s.onEngine fun e => { e with slew := none })
      (s.completeAxes kind tPark scale).followingChecks) ∧
    (kind ≠ .jog → ∃ ns ls, CheckedEnd ns (s.parkedAt tPark scale ls)
        (s.completeAxes kind tPark scale).followingChecks ∧
      s.levelsTaken tPark { s with levels := ls } ∧ (ns = .idle ∨ ns = .armed) ∧
      (ns = .armed ↔ (s.parkedAt tPark scale ls).armable)) := by
  refine ⟨fun hk => ?_, fun hk => ?_⟩
  · subst hk
    exact .followingChecks (State.completeAxes_jog tPark scale s) hs.defaults (.inl rfl)
  · obtain ⟨ns, ls, entered, levels, either, iff⟩ :=
      State.completeAxes_onPath hk (s := s) (by rw [hn]; rfl) tPark scale
    exact ⟨ns, ls, .followingChecks entered hs.defaults (either.imp_right .inl), levels, either, iff⟩

/-- An axis slew that comes to rest where it stands (R95, R126). -/
structure RestedAxes (s t u : State) : Prop extends SlewKeeps s u where
  node : u.engine.nodeState = .idle
  slew : u.engine.slew = none
  path : u.engine.path = s.engine.path
  levels : u.levels = s.levels
  axes : u.axes = t.axes
  holds : ∀ a : Fin 4, u.engine.holdTargets[a] = s.axes[a].commanded.toInt

theorem SlewHanded.rested {decel : Bool} {formed given : Fin 4 → Bool} {t : State}
    (h : SlewHanded kind tPark scale moved decel formed given s t) : RestedAxes s t t.restAxes := by
  have entered := t.restAxes_entered
  generalize t.restAxes = u at entered
  have engine := entered.engine
  refine ⟨h.toSlewKeeps.trans ((SlewKeeps.withEngine _ t.levels t).trans entered.toSlewKeeps), ?_, ?_, ?_,
    entered.levels.trans h.levels, entered.axes, fun a => ?_⟩ <;> rw [engine]
  · exact h.path
  · simp only [Fin.getElem_fin, Vector.getElem_ofFn]
    exact congrArg BitVec.toInt (h.commanded a)

/-! ## Returns -/

/-- What a return evaluates at move time `time`. -/
abbrev State.returnEvals (time : Nat) (s : State) : Fin 4 → Option AxisEval :=
  s.store.evalAxis time s.engine.path.scale

/-- The hold target that axis `a` then has. -/
abbrev State.returnAim (time : Nat) (s : State) (a : Fin 4) : Int :=
  ((s.returnEvals time a).map AxisEval.target).getD s.engine.holdTargets[a]

/-- The evaluation or a following check of its targets halts the return (R127). -/
abbrev State.returnHalts (time : Nat) (s : State) : Prop :=
  ∃ a ev, s.returnEvals time a = some ev ∧ (ev.clamped = true ∨ s.followsBadly a)

/-- From `s` to `t` a slew tick of a return has moved T, evaluated there, and handed the targets. -/
structure ReturnMoved (q : Quantity) (count : Nat) (s t : State) : Prop extends SlewKeeps s t where
  moveTime : t.engine.moveTime = q.value.toNat
  taken : EvalMarks.Taken .slew count (exceptionsOf (s.returnEvals q.value.toNat) axisOrder)
    (clampsOf (s.returnEvals q.value.toNat) axisOrder) s.evalMarks t.evalMarks
  axes : ∀ a : Fin 4, (∀ ev, s.returnEvals q.value.toNat a = some ev →
      t.axes[a] = s.channelTakes a ev.target 50000) ∧
    (s.returnEvals q.value.toNat a = none → t.axes[a] = s.axes[a])

/-- The tick has taken the levels where `due`, and neither completed the return nor brought it to rest. -/
structure ReturnTicked (q : Quantity) (count : Nat) (due : Prop) (decel : Bool) (s t : State) : Prop
    extends ReturnMoved q count s t where
  fixed : t = { s with
    line := { s.line with txQueue := t.line.txQueue }
    clock := t.clock, cues := t.cues, free := t.free, engine := t.engine, axes := t.axes, levels := t.levels
    sup := { s.sup with
      latched := t.sup.latched, notes := t.sup.notes, axisSets := t.sup.axisSets, origins := t.sup.origins
      counters := t.sup.counters, exception := t.sup.exception, exceptionCount := t.sup.exceptionCount } }
  engine : t.engine = { s.engine with
    moveTime := q.value.toNat, holdTargets := t.engine.holdTargets, slew := t.engine.slew }
  slew : ∃ halted, t.engine.slew = some (.path q count halted) ∧
    (halted = true ↔ decel = true ∨ s.returnHalts q.value.toNat)
  clock : ¬ s.returnHalts q.value.toNat → t.clock = s.clock
  holds : ∀ a : Fin 4, t.engine.holdTargets[a] = s.returnAim q.value.toNat a
  levels : (due → s.levelsTaken q.value.toNat t) ∧ (¬ due → t.levels = s.levels)

theorem ReturnTicked.of_returning (hs : s.OffPass) (hn : s.engine.nodeState = .returning) (q : Quantity)
    (count : Nat) (due : Prop) [Decidable due] (decel : Bool) : ReturnTicked q count due decel s
      (((s.setReturn q count decel).returnWork q.value.toNat count).levelsIf due q.value.toNat) := by
  have offPass : (s.setReturn q count decel).OffPass := ⟨hs.outside, hs.defaults⟩
  have work := ReturnWorked.returnWork offPass q.value.toNat count
  obtain ⟨engine, halts, runs⟩ := work.alarmed.slewEngine (.inr hn)
  have astray (a : Fin 4) : (s.setReturn q count decel).checksBadly a ↔ s.followsBadly a :=
    State.checksBadly_slewing (s := s.setReturn q count decel) (.inr hn) a
  have halted : (∃ a ev, s.returnEvals q.value.toNat a = some ev ∧
      (ev.clamped = true ∨ (s.setReturn q count decel).checksBadly a)) ↔ s.returnHalts q.value.toNat := by
    simp only [astray]
  have clock := fun hh => (work.alarmed.calm hh).2
  generalize (s.setReturn q count decel).returnWork q.value.toNat count = v at *
  obtain ⟨ls, taken, due, undue⟩ := v.levelsIf_taken due q.value.toNat
  have store : v.store = s.store := work.store
  have levels : v.levels = s.levels := work.alarmed.levels
  have keeps : SlewKeeps s v := (SlewKeeps.withEngine _ s.levels s).trans work.toSlewKeeps
  rw [taken]
  have moveTime : v.engine.moveTime = q.value.toNat := by rw [engine]; rfl
  refine ⟨⟨keeps.trans (.withEngine v.engine ls v), moveTime, work.taken, fun a => ⟨work.handed a, work.others a⟩⟩,
    ?_, engine, ?_, fun hh => clock (mt halted.1 hh), work.holds, fun hd => ?_, fun hd => (undue hd).trans levels⟩
  · exact congrArg (fun x : State => { x with axes := v.axes, engine := v.engine, levels := ls }) work.alarmed.fixed
  · by_cases hh : s.returnHalts q.value.toNat
    · exact ⟨true, halts (halted.2 hh), by simp [hh]⟩
    · exact ⟨decel, runs (mt halted.1 hh), by simp [hh]⟩
  · have values := due hd
    unfold State.levelsTaken at values ⊢
    rw [store, levels] at values
    exact values

/-- A part that leaves what the move has made, and the channels. -/
theorem ReturnMoved.of_entered {q : Quantity} {count : Nat} {s t u : State} {ns : NodeState} {e : Engine}
    {ls : Vector LevelChannel 2} (h : ReturnMoved q count s t)
    (k : Entered ns { t with engine := e, levels := ls } u) (he : e.moveTime = t.engine.moveTime) :
    ReturnMoved q count s u where
  toSlewKeeps := h.toSlewKeeps.trans ((SlewKeeps.withEngine e ls t).trans k.toSlewKeeps)
  moveTime := by
    rw [k.engine]
    exact he.trans h.moveTime
  taken := by
    rw [k.evalMarks]
    exact h.taken
  axes a := by
    rw [k.axes]
    exact h.axes a

section
variable {q : Quantity} {count : Nat} {due : Prop} {decel : Bool} {t : State}
  (h : ReturnTicked q count due decel s t)
include h

theorem ReturnTicked.node : t.engine.nodeState = s.engine.nodeState ∧ t.engine.path = s.engine.path := by
  rw [h.engine]
  exact ⟨rfl, rfl⟩

/-- A return that comes to rest at its T (R100, R127). -/
theorem ReturnTicked.rested : ReturnMoved q count s t.restReturn ∧ t.restReturn.engine.nodeState = .halted ∧
    t.restReturn.engine.slew = none ∧
    (∀ a : Fin 4, t.restReturn.engine.holdTargets[a] = s.axes[a].commanded.toInt) ∧
    t.restReturn.engine.path = { s.engine.path with onPath := true, tPark := q.value.toNat } ∧
    s.levelsTaken q.value.toNat t.restReturn := by
  obtain ⟨ls, entered, levels⟩ := t.restReturn_spec
  have engine := entered.engine
  obtain ⟨-, path⟩ := h.node
  rw [h.moveTime] at levels
  generalize t.restReturn = u at *
  refine ⟨h.toReturnMoved.of_entered entered rfl, ?_, ?_, fun a => ?_, ?_, ?_⟩
  iterate 2 rw [engine]
  · rw [engine]
    simp only [Fin.getElem_fin, Vector.getElem_ofFn]
    exact congrArg BitVec.toInt (h.commanded a)
  · rw [engine, h.moveTime, path]
  · have rested : t.levelsTaken q.value.toNat u := by
      unfold State.levelsTaken
      rw [entered.levels]
      exact levels
    by_cases hd : due
    · exact State.levelsTaken_trans h.store (h.levels.1 hd) rested
    · have same := h.levels.2 hd
      unfold State.levelsTaken at rested ⊢
      rwa [h.store, same] at rested

/-- A return that completes at T = 0 with no halt raised (R100). -/
theorem ReturnTicked.completed (hs : s.engine.nodeState = .returning) (hh : ¬ s.returnHalts q.value.toNat) :
    ReturnMoved q count s t.completeReturn ∧
    (t.completeReturn.engine.nodeState = .idle ∨ t.completeReturn.engine.nodeState = .armed) ∧
    (t.completeReturn.engine.nodeState = .armed ↔ ({ s with engine := { s.engine with path :=
      { s.engine.path with onPath := true, tPark := 0 } } } : State).armable) ∧
    t.completeReturn.engine.slew = none ∧
    t.completeReturn.engine.path = { s.engine.path with onPath := true, tPark := 0 } ∧
    t.completeReturn.levels = t.levels := by
  obtain ⟨node, path⟩ := h.node
  obtain ⟨ns, entered, either, iff⟩ := State.completeReturn_spec (s := t) (by rw [node, hs]; rfl)
  have clock := h.clock hh
  have parked : (t.parkedAt 0 t.engine.path.scale t.levels).engine.path =
      { s.engine.path with onPath := true, tPark := 0 } := by
    rw [← path]
    rfl
  have same : (t.parkedAt 0 t.engine.path.scale t.levels).armable ↔ ({ s with engine := { s.engine with path :=
      { s.engine.path with onPath := true, tPark := 0 } } } : State).armable := by
    refine State.armable_congr ?_ ⟨congrArg (·.state) clock, congrArg (·.lastMark) clock⟩ h.commanded parked
    exact congrArg (fun x : State => { x with engine := (t.parkedAt 0 t.engine.path.scale t.levels).engine }) h.fixed
  have engine := entered.engine
  generalize t.completeReturn = u at *
  have reached : u.engine.nodeState = ns := by rw [engine]
  refine ⟨h.toReturnMoved.of_entered entered rfl, by rw [reached]; exact either,
    by rw [reached]; exact iff.trans same, ?_, ?_, entered.levels⟩ <;> rw [engine]
  · rfl
  · exact parked

end
end

end Sys2Proof.Machine
end

section
/-! PROOFS. The slew ticks of each node state as the claims say them (R92, R95, R100, R101, R126, R127; O43). -/

namespace Sys2Proof.Machine

section
variable {s : State} (hs : s.OffPass)
include hs

/-! ## STOPPED and the states at rest (R101, R146) -/

omit hs in
/-- FOLLOWING_ERROR after a tick that checks every axis. -/
theorem Worked.following_iff {w : Fin 4 → AxisWork} {t : State} (h : Worked w s t) (hw : ∀ a, (w a).checks)
    (hc : s.checks) : t.latchedCause .followingError = true ↔
      s.latchedCause .followingError = true ∨ ∃ a, s.followsBadly a := by
  rw [h.following]
  exact or_congr_right (exists_congr fun a => (and_iff_right (hw a)).trans (and_iff_right hc))

theorem State.slewWork_stopped_spec (hn : s.engine.nodeState = .stopped) : ∃ u, s.slewWork = u ∧
    u = { s with sup := u.sup } ∧
    (u.latchedCause .followingError = true ↔ s.latchedCause .followingError = true ∨ ∃ a, s.followsBadly a) ∧
    ∀ a, s.followsBadly a → u.sup.axisSets[2].getLsbD a.val = true := by
  have work := Worked.followingChecks hs
  have active : s.checks := by simp [State.checks, hn]
  exact ⟨_, State.slewWork_stopped hn, State.followingChecks_stopped hs.defaults hn,
    work.following_iff (fun _ => trivial) active, fun a ha => work.set a ⟨trivial, active, ha⟩⟩

theorem State.slewWork_rest_spec (hn : s.engine.nodeState ∈ [NodeState.idle, .armed, .pending, .halted, .ended,
    .loading, .settling, .excluded]) : ∃ u, s.slewWork = u ∧ SlewKeeps s u ∧
    u.engine.holdTargets = s.engine.holdTargets ∧ (∀ a : Fin 4, u.axes[a] = s.standing a s.engine.holdTargets[a]) ∧
    (s.checks → (u.latchedCause .followingError = true ↔
      s.latchedCause .followingError = true ∨ ∃ a, s.followsBadly a)) ∧
    (s.engine.nodeState.unalarmed = true → u.engine = s.engine) := by
  have work := Worked.handAxes (fun _ => false) hs
  have held := work.holdTargets fun _ => rfl
  rw [State.slewWork_rest hn]
  generalize s.handAxes (fun _ => false) = u at work held
  refine ⟨u, rfl, .worked work, held, fun a => ?_, work.following_iff fun _ => trivial, fun hu => ?_⟩
  · rw [work.axes]
    exact State.workedAxis_rehand hs a
  · rw [work.alarmed.engine_of_unalarmed hu, held]
    rfl

/-! ## Axis slews (R95, R126) -/

section
variable (hn : s.engine.nodeState = .slewing) {kind : AxisSlewKind} {tPark scale : Nat}
  {moved : Vector (Option Quantity) 4}
include hn

theorem State.axisSlew_moves (hm : ¬ DemandsStill moved) : ∃ u, s.axisSlewTick kind tPark scale moved = u ∧
    SlewKeeps s u ∧ u.engine.nodeState = .slewing ∧ u.engine.path = s.engine.path ∧
    (∃ halted, u.engine.slew = some (.axes kind tPark scale (moveAll Quantity.advance moved) halted) ∧
      (halted = true → ∃ a, s.followsBadly a)) ∧ u.levels = s.levels ∧
    ∀ a : Fin 4, (∀ q, moved[a] = some q → u.engine.holdTargets[a] = q.advance.stepTarget ∧
        u.axes[a] = s.channelTakes a q.advance.stepTarget 50000) ∧
      (moved[a] = none → u.axes[a] = s.standing a s.engine.holdTargets[a]) := by
  have h := SlewHanded.slewHanded hs hn kind tPark scale (moveAll Quantity.advance moved) false
    (fun a => moved[a].isSome) fun a => moved[a].isSome
  rw [State.axisSlewTick_moving hm]
  refine ⟨_, rfl, h.toSlewKeeps, h.node, h.path, ?_, h.levels, fun a => ⟨fun q hq => ?_, fun hq => ?_⟩⟩
  · obtain ⟨halted, slew, -, bad⟩ := h.slew
    exact ⟨halted, slew, fun hh => (bad hh).resolve_left Bool.false_ne_true⟩
  · have next : (moveAll Quantity.advance moved)[a] = some q.advance := by rw [moveAll_getElem, hq]; rfl
    have given : moved[a].isSome = true := by rw [hq]; rfl
    have aim := (State.aims_some (s := s) (p := fun a => moved[a].isSome) next).trans (if_pos given)
    exact ⟨(h.holds a).trans aim, ((h.axes a).trans (if_pos given)).trans (by rw [aim])⟩
  · have next : (moveAll Quantity.advance moved)[a] = none := by rw [moveAll_getElem, hq]; rfl
    have given : ¬ moved[a].isSome = true := by rw [hq]; decide
    have aim := State.aims_none (s := s) (p := fun a => moved[a].isSome) next
    exact ((h.axes a).trans (if_neg given)).trans (by rw [aim])

theorem State.axisSlew_completes (hw : s.engine.slew = some (.axes kind tPark scale moved false))
    (hm : DemandsStill moved) (ha : s.arrived moved) : ∃ u, s.axisSlewTick kind tPark scale moved = u ∧
    SlewKeeps s u ∧ u.axes = s.axes ∧ u.engine.slew = none ∧
    (∀ a : Fin 4, u.engine.holdTargets[a] = (moved[a].map Quantity.stepTarget).getD s.engine.holdTargets[a]) ∧
    (kind = .jog → u.engine.nodeState = .idle ∧ u.engine.path = s.engine.path ∧ u.levels = s.levels) ∧
    (kind ≠ .jog → s.levelsTaken tPark u ∧ (u.engine.nodeState = .idle ∨ u.engine.nodeState = .armed) ∧
      (u.engine.nodeState = .armed ↔ (∀ a, ¬ s.followsBadly a) ∧ ({ s with engine := { s.engine with path :=
        { onPath := true, tPark := tPark, scale := scale } } } : State).armable) ∧
      (u.engine.path.onPath = false → u.engine.nodeState = .idle ∧ ∃ a, s.followsBadly a) ∧
      u.engine.path.tPark = tPark ∧ u.engine.path.scale = scale) := by
  rw [State.axisSlewTick_still hw hm, if_pos (State.arrived_iff.2 ha)]
  generalize hy : s.formTargets (fun a => moved[a].isSome) moved = y
  have offPass : y.OffPass := hy ▸ ⟨hs.outside, hs.defaults⟩
  have node : y.engine.nodeState = .slewing := hy ▸ hn
  have keeps : SlewKeeps s y := hy ▸ .withEngine _ s.levels s
  have axes : y.axes = s.axes := hy ▸ rfl
  have levels : y.levels = s.levels := hy ▸ rfl
  have path : y.engine.path = s.engine.path := hy ▸ rfl
  have astray (a : Fin 4) : y.followsBadly a ↔ s.followsBadly a := hy ▸ Iff.rfl
  have aims (a : Fin 4) : y.engine.holdTargets[a] =
      (moved[a].map Quantity.stepTarget).getD s.engine.holdTargets[a] := by
    rw [← State.aims_isSome, ← hy]
    simp [State.formTargets_eq]
  have armable (ls : Vector LevelChannel 2) : (y.parkedAt tPark scale ls).armable ↔
      ({ s with engine := { s.engine with path := { onPath := true, tPark := tPark, scale := scale } } } :
        State).armable := hy ▸ Iff.rfl
  obtain ⟨jog, parks⟩ := State.completeAxes_checked offPass node kind tPark scale
  generalize (y.completeAxes kind tPark scale).followingChecks = u at jog parks
  by_cases hk : kind = .jog
  · have ended := jog hk
    obtain ⟨idle, kept⟩ := ended.unarmed (by decide)
    exact ⟨u, rfl, (keeps.trans (.withEngine _ y.levels y)).trans ended.toSlewKeeps, ended.axes.trans axes,
      ended.slew, fun a => (congrArg (·[a]) ended.holds).trans (aims a),
      fun _ => ⟨idle, kept.trans path, ended.levels.trans levels⟩, fun h => absurd hk h⟩
  · obtain ⟨ns, ls, ended, taken, either, iff⟩ := parks hk
    have armed : (u.engine.nodeState = .armed ↔ (∀ a, ¬ s.followsBadly a) ∧ ns = .armed) := by
      rw [ended.armed_iff, and_comm]
      exact and_congr_left fun _ => forall_congr' fun a => not_congr (astray a)
    have values : s.levelsTaken tPark u := by
      unfold State.levelsTaken at taken ⊢
      rw [ended.levels]
      rw [keeps.store, levels] at taken
      exact taken
    refine ⟨u, rfl, (keeps.trans (.withEngine _ ls y)).trans ended.toSlewKeeps, ended.axes.trans axes, ended.slew,
      fun a => (congrArg (·[a]) ended.holds).trans (aims a), fun h => absurd h hk,
      fun _ => ⟨values, ?_, ?_, ?_, ?_, ?_⟩⟩
    · rcases either with h | h
      · exact .inl ((ended.unarmed (by rw [h]; decide)).1.trans h)
      · exact ended.armed h
    · rw [armed, iff, armable]
    · intro off
      rcases ended.path with same | ⟨-, idle, a, bad⟩
      · rw [same] at off
        exact absurd off (by simp [State.parkedAt])
      · exact ⟨idle, a, (astray a).1 bad⟩
    all_goals rcases ended.path with same | ⟨same, -⟩ <;> rw [same] <;> rfl

theorem State.axisSlew_rests (hw : s.engine.slew = some (.axes kind tPark scale moved false))
    (hm : DemandsStill moved) (ha : ¬ s.arrived moved) {aim : Fin 4 → Int}
    (haim : ∀ a : Fin 4, (moved[a].map Quantity.stepTarget).getD s.engine.holdTargets[a] = aim a) :
    ∃ u, s.axisSlewTick kind tPark scale moved = u ∧
    SlewKeeps s u ∧ u.engine.path = s.engine.path ∧ u.levels = s.levels ∧
    (∀ a : Fin 4, u.axes[a] = s.standing a (aim a)) ∧
    ((∀ a : Fin 4, moved[a] ≠ none → s.standsOn a (aim a)) →
      u.engine.nodeState = .idle ∧ u.engine.slew = none ∧
        ∀ a : Fin 4, u.engine.holdTargets[a] = s.axes[a].commanded.toInt) ∧
    ((¬ ∀ a : Fin 4, moved[a] ≠ none → s.standsOn a (aim a)) →
      u.engine.nodeState = .slewing ∧ ∀ a : Fin 4, u.engine.holdTargets[a] = aim a) := by
  have h := SlewHanded.slewHanded hs hn kind tPark scale moved false (fun a => moved[a].isSome) fun _ => false
  rw [State.axisSlewTick_still hw hm, if_neg (mt State.arrived_iff.1 ha)]
  dsimp only
  generalize s.slewHanded kind tPark scale moved false (fun a => moved[a].isSome) (fun _ => false) = t at h ⊢
  have formed (a : Fin 4) : s.aims (fun a => moved[a].isSome) moved a = aim a :=
    (State.aims_isSome moved s a).trans (haim a)
  have aims (a : Fin 4) := (h.holds a).trans (formed a)
  have axes (a : Fin 4) : t.axes[a] = s.standing a (aim a) := by
    rw [h.axes, if_neg Bool.false_ne_true, formed]
  have rests : t.everyAxis (fun a => moved[a].isSome) State.settled = true ↔
      ∀ a : Fin 4, moved[a] ≠ none → s.standsOn a (aim a) := by
    rw [State.everyAxis_iff]
    refine forall_congr' fun a => ?_
    rw [Option.isSome_iff_ne_none, State.settled_iff, h.standsOn, aims]
  by_cases hr : t.everyAxis (fun a => moved[a].isSome) State.settled = true
  · rw [if_pos hr]
    have r := h.rested
    exact ⟨_, rfl, r.toSlewKeeps, r.path, r.levels, fun a => by rw [r.axes, axes], fun _ => ⟨r.node, r.slew, r.holds⟩,
      fun hr' => absurd (rests.1 hr) hr'⟩
  · rw [if_neg hr]
    exact ⟨_, rfl, h.toSlewKeeps, h.path, h.levels, axes, fun hr' => absurd (rests.2 hr') hr, fun _ => ⟨h.node, aims⟩⟩

theorem State.brakeSlew_spec {aim : Fin 4 → Int}
    (haim : ∀ a, s.aims (changedBy Quantity.brake moved) (moveAll Quantity.brake moved) a = aim a) : ∃ u,
    s.brakeSlewTick kind tPark scale moved = u ∧ SlewKeeps s u ∧
    u.engine.path = s.engine.path ∧ u.levels = s.levels ∧
    (∀ a : Fin 4,
      (∀ q, moved[a] = some q → q.brake.value ≠ q.value →
        u.axes[a] = s.channelTakes a q.brake.stepTarget 50000) ∧
      ((∀ q, moved[a] = some q → q.brake.value = q.value) → u.axes[a] = s.standing a s.engine.holdTargets[a])) ∧
    ((∀ (a : Fin 4) (q : Quantity), moved[a] = some q →
        q.brake.velocity = 0 ∧ s.standsOn a (aim a)) →
      u.engine.nodeState = .idle ∧ u.engine.slew = none ∧
        ∀ a : Fin 4, u.engine.holdTargets[a] = s.axes[a].commanded.toInt) ∧
    ((¬ ∀ (a : Fin 4) (q : Quantity), moved[a] = some q →
        q.brake.velocity = 0 ∧ s.standsOn a (aim a)) →
      u.engine.nodeState = .slewing ∧
      (∀ a : Fin 4, u.engine.holdTargets[a] = aim a) ∧
      u.engine.slew = some (.axes kind tPark scale (moveAll Quantity.brake moved) true)) := by
  have h := SlewHanded.slewHanded hs hn kind tPark scale (moveAll Quantity.brake moved) true
    (changedBy Quantity.brake moved) (changedBy Quantity.brake moved)
  rw [State.brakeSlewTick_eq]
  dsimp only
  generalize s.slewHanded kind tPark scale (moveAll Quantity.brake moved) true (changedBy Quantity.brake moved)
    (changedBy Quantity.brake moved) = t at h ⊢
  have slew : t.engine.slew = some (.axes kind tPark scale (moveAll Quantity.brake moved) true) := by
    obtain ⟨halted, slew, brakes, -⟩ := h.slew
    rw [slew, brakes rfl]
  have axes (a : Fin 4) :
      (∀ q, moved[a] = some q → q.brake.value ≠ q.value →
        t.axes[a] = s.channelTakes a q.brake.stepTarget 50000) ∧
      ((∀ q, moved[a] = some q → q.brake.value = q.value) → t.axes[a] = s.standing a s.engine.holdTargets[a]) := by
    refine ⟨fun q hq changed => ?_, fun same => ?_⟩
    · have given : changedBy Quantity.brake moved a = true := by
        rw [← Bool.not_eq_false, changedBy_eq_false]
        exact fun same => changed (same q hq)
      have next : (moveAll Quantity.brake moved)[a] = some q.brake := by rw [moveAll_getElem, hq]; rfl
      rw [h.axes, if_pos given, State.aims_some next, if_pos given]
    · have given : changedBy Quantity.brake moved a = false := changedBy_eq_false.2 same
      have aim : s.aims (changedBy Quantity.brake moved) (moveAll Quantity.brake moved) a =
          s.engine.holdTargets[a] := by
        cases hq : (moveAll Quantity.brake moved)[a] with
        | none => exact State.aims_none hq
        | some q => exact (State.aims_some hq).trans (if_neg (by rw [given]; decide))
      rw [h.axes, given, if_neg Bool.false_ne_true, aim]
  have rests : t.everyAxis (fun a => (moveAll Quantity.brake moved)[a].isSome) (fun a s =>
      ((moveAll Quantity.brake moved)[a].map Quantity.velocity).getD 0 == 0 && s.settled a) = true ↔
      ∀ (a : Fin 4) (q : Quantity), moved[a] = some q →
        q.brake.velocity = 0 ∧ s.standsOn a (aim a) := by
    rw [State.everyAxis_iff]
    refine forall_congr' fun a => ?_
    rw [Bool.and_eq_true, State.settled_iff, h.standsOn, h.holds, haim, moveAll_getElem]
    cases moved[a] <;> simp
  by_cases hr : t.everyAxis (fun a => (moveAll Quantity.brake moved)[a].isSome) (fun a s =>
      ((moveAll Quantity.brake moved)[a].map Quantity.velocity).getD 0 == 0 && s.settled a) = true
  · rw [if_pos hr]
    have r := h.rested
    exact ⟨_, rfl, r.toSlewKeeps, r.path, r.levels, fun a => by rw [r.axes]; exact axes a,
      fun _ => ⟨r.node, r.slew, r.holds⟩, fun hr' => absurd (rests.1 hr) hr'⟩
  · rw [if_neg hr]
    exact ⟨_, rfl, h.toSlewKeeps, h.path, h.levels, axes, fun hr' => absurd (rests.2 hr') hr,
      fun _ => ⟨h.node, fun a => (h.holds a).trans (haim a), slew⟩⟩

end
end

end Sys2Proof.Machine
end

section
/-! PROOFS. Slew ticks in every node state (R49, R94 to R101, R126, R127; O43). -/

namespace Sys2Proof.Machine

/-! ## Returns (R100, R127) -/

section
variable {s : State} (hs : s.OffPass) (hn : s.engine.nodeState = .returning) {q : Quantity} {count : Nat}

theorem State.returned.rests (h : s.returned) : s.restsEnabled := fun a ha => .inl (h a ha)

include hs hn

omit hn in
/-- The enabled axes are the same throughout the hand-overs. -/
theorem Worked.rehandEnabled : Worked (fun a => if s.store.axisPlays a then .rehand else .skip) s
    (axisOrder.foldl (fun s a => if s.store.axisPlays a then s.rehand a else s) s) := by
  have same (axes : List (Fin 4)) : ∀ t : State, t.OffPass → t.store = s.store →
      axes.foldl (fun t a => if t.store.axisPlays a then t.rehand a else t) t =
        axes.foldl (fun t a => t.axisWork a (if s.store.axisPlays a then .rehand else .skip)) t := by
    induction axes with
    | nil => exact fun _ _ _ => rfl
    | cons a axes ih =>
      intro t ht store
      have work := (AxisWorked.axisWork ht a (if s.store.axisPlays a then .rehand else .skip)).alarmed
      have first : (if t.store.axisPlays a then t.rehand a else t) =
          t.axisWork a (if s.store.axisPlays a then .rehand else .skip) := by
        rw [store]
        split <;> rfl
      rw [List.foldl_cons, List.foldl_cons, first]
      exact ih _ (work.offPass ⟨ht.outside, ht.defaults⟩) (work.store.trans store)
  rw [same axisOrder s hs rfl]
  exact .foldl _ hs

/-- T is at 0 already: the return completes, rests, or hands the hold targets again. -/
theorem State.returnTick_arrived_spec (h : q.distance = 0) : ∃ u, s.returnTick q count = u ∧ SlewKeeps s u ∧
    (s.returned → u.engine.slew = none ∧ u.axes = s.axes ∧ u.levels = s.levels ∧
      (u.engine.nodeState = .idle ∨ u.engine.nodeState = .armed) ∧
      (u.engine.nodeState = .armed ↔ (∀ a, ¬ s.followsBadly a) ∧ ({ s with engine := { s.engine with path :=
        { s.engine.path with onPath := true, tPark := 0 } } } : State).armable) ∧
      (u.engine.path = { s.engine.path with onPath := true, tPark := 0 } ∨
        u.engine.path = { s.engine.path with onPath := false, tPark := 0 } ∧
          u.engine.nodeState = .idle ∧ ∃ a, s.followsBadly a)) ∧
    (¬ s.returned → s.restsEnabled → u.engine.nodeState = .halted ∧ u.engine.slew = none ∧
      (∀ a : Fin 4, u.engine.holdTargets[a] = s.axes[a].commanded.toInt) ∧ u.axes = s.axes ∧
      s.levelsTaken q.value.toNat u ∧
      u.engine.path = { s.engine.path with onPath := true, tPark := q.value.toNat }) ∧
    (¬ s.restsEnabled → u.engine.nodeState = .returning ∧ u.engine.path = s.engine.path ∧ u.levels = s.levels ∧
      (∀ a : Fin 4, (s.store.axisPlays a = true → u.axes[a] = s.standing a s.engine.holdTargets[a]) ∧
        (¬ s.store.axisPlays a = true → u.axes[a] = s.axes[a])) ∧
      u.engine.holdTargets = s.engine.holdTargets) := by
  rw [State.returnTick_arrived h]
  generalize hy : s.setReturn q (count + 1) false = y
  have offPass : y.OffPass := hy ▸ ⟨hs.outside, hs.defaults⟩
  have node : y.engine.nodeState = .returning := hy ▸ hn
  have keeps : SlewKeeps s y := hy ▸ .withEngine _ s.levels s
  have returned : y.returned ↔ s.returned := hy ▸ Iff.rfl
  have rests : y.restsEnabled ↔ s.restsEnabled := hy ▸ Iff.rfl
  rcases y.finishReturn_cases with ⟨done, run⟩ | ⟨undone, rest, run⟩ | ⟨unrest, run⟩ <;> rw [run] <;> dsimp only
  · obtain ⟨ns, entered, either, iff⟩ := State.completeReturn_spec (s := y) (by rw [node]; rfl)
    have ended := CheckedEnd.followingChecks entered offPass.defaults (either.imp_right .inl)
    generalize y.completeReturn.followingChecks = u at ended
    have armable : (y.parkedAt 0 y.engine.path.scale y.levels).armable ↔ ({ s with engine := { s.engine with path :=
        { s.engine.path with onPath := true, tPark := 0 } } } : State).armable := hy ▸ Iff.rfl
    have path : (y.parkedAt 0 y.engine.path.scale y.levels).engine.path =
        { s.engine.path with onPath := true, tPark := 0 } := hy ▸ rfl
    have astray (a : Fin 4) : (y.parkedAt 0 y.engine.path.scale y.levels).followsBadly a ↔ s.followsBadly a :=
      hy ▸ Iff.rfl
    refine ⟨u, rfl, (keeps.trans (.withEngine _ y.levels y)).trans ended.toSlewKeeps, fun _ => ⟨ended.slew,
      ended.axes.trans (hy ▸ rfl), ended.levels.trans (hy ▸ rfl), ?_, ?_, ?_⟩,
      fun un => absurd (returned.1 done) un, fun un => absurd (returned.1 done).rests un⟩
    · rcases either with h | h
      · exact .inl ((ended.unarmed (by rw [h]; decide)).1.trans h)
      · exact ended.armed h
    · rw [ended.armed_iff, iff, armable, and_comm]
      exact and_congr_left fun _ => forall_congr' fun a => not_congr (astray a)
    · rcases ended.path with same | ⟨off, idle, a, bad⟩
      · exact .inl (same.trans path)
      · exact .inr ⟨off.trans (by rw [path]), idle, a, (astray a).1 bad⟩
  · obtain ⟨ls, entered, levels⟩ := y.restReturn_spec
    have ended := CheckedEnd.followingChecks entered offPass.defaults (.inr (.inr rfl))
    generalize y.restReturn.followingChecks = u at ended
    obtain ⟨halted, path⟩ := ended.unarmed (by decide)
    refine ⟨u, rfl, (keeps.trans (.withEngine _ ls y)).trans ended.toSlewKeeps,
      fun done => absurd (returned.2 done) undone, fun _ _ => ⟨halted, ended.slew, fun a => ?_,
      ended.axes.trans (hy ▸ rfl), ?_, path.trans (hy ▸ rfl)⟩, fun un => absurd (rests.1 rest) un⟩
    · rw [ended.holds, ← hy]
      simp only [Fin.getElem_fin, Vector.getElem_ofFn]
      rfl
    · rw [← hy] at levels
      unfold State.levelsTaken
      rw [ended.levels]
      exact levels
  · have work := Worked.rehandEnabled offPass
    have held := work.holdTargets fun a => by split <;> rfl
    obtain ⟨engine, -⟩ := work.alarmed.slewEngine (.inr node)
    generalize axisOrder.foldl (fun s a => if s.store.axisPlays a then s.rehand a else s) y = u at *
    have plays (a : Fin 4) : y.store.axisPlays a = s.store.axisPlays a := hy ▸ rfl
    refine ⟨u, rfl, keeps.trans (.worked work), fun done => absurd (returned.2 done).rests unrest,
      fun _ rest => absurd (rests.2 rest) unrest, fun _ => ⟨?_, ?_, work.alarmed.levels.trans (hy ▸ rfl),
      fun a => ⟨fun ha => ?_, fun ha => ?_⟩, held.trans (hy ▸ rfl)⟩⟩
    · rw [engine]
      exact node
    · rw [engine, ← hy]
      rfl
    · have axis := work.axes a
      rw [plays, if_pos ha, State.workedAxis_rehand offPass] at axis
      exact axis.trans (hy ▸ rfl)
    · have axis := work.axes a
      rw [plays, if_neg ha] at axis
      exact axis.trans (hy ▸ rfl)

/-- T moves: the return evaluates and hands its targets; on the tick on which T reaches its destination it completes,
rests, or goes on, unless the tick has halted it (assumption 31). -/
theorem State.returnTick_moving_spec (h : q.distance ≠ 0) : ∃ u, s.returnTick q count = u ∧
    ReturnMoved q.advance (count + 1) s u ∧
    ((count + 1) % 16 = 0 ∨ q.advance.distance = 0 → s.levelsTaken q.advance.value.toNat u) ∧
    (q.advance.distance ≠ 0 ∨ s.returnHalts q.advance.value.toNat → u.engine.nodeState = .returning ∧
      u.engine.path = s.engine.path ∧
      (∃ halted, u.engine.slew = some (.path q.advance (count + 1) halted) ∧
        (halted = true ↔ s.returnHalts q.advance.value.toNat)) ∧
      (∀ a : Fin 4, u.engine.holdTargets[a] = s.returnAim q.advance.value.toNat a) ∧
      ((count + 1) % 16 ≠ 0 → q.advance.distance ≠ 0 → u.levels = s.levels)) ∧
    (q.advance.distance = 0 → ¬ s.returnHalts q.advance.value.toNat →
      ((∀ a, s.store.axisPlays a = true →
          s.axes[a].commandedAt s.now = s.returnAim q.advance.value.toNat a) →
        u.engine.slew = none ∧ (u.engine.nodeState = .idle ∨ u.engine.nodeState = .armed) ∧
        (u.engine.nodeState = .armed ↔ ({ s with engine := { s.engine with path :=
          { s.engine.path with onPath := true, tPark := 0 } } } : State).armable) ∧
        u.engine.path = { s.engine.path with onPath := true, tPark := 0 }) ∧
      ((¬ ∀ a, s.store.axisPlays a = true →
          s.axes[a].commandedAt s.now = s.returnAim q.advance.value.toNat a) →
        (∀ a, s.store.axisPlays a = true → s.standsOn a (s.returnAim q.advance.value.toNat a)) →
        u.engine.nodeState = .halted ∧ u.engine.slew = none ∧
        (∀ a : Fin 4, u.engine.holdTargets[a] = s.axes[a].commanded.toInt) ∧
        u.engine.path = { s.engine.path with onPath := true, tPark := q.advance.value.toNat }) ∧
      ((¬ ∀ a, s.store.axisPlays a = true → s.standsOn a (s.returnAim q.advance.value.toNat a)) →
        u.engine.nodeState = .returning ∧ u.engine.path = s.engine.path ∧
        ∀ a : Fin 4, u.engine.holdTargets[a] = s.returnAim q.advance.value.toNat a)) := by
  have moved := ReturnTicked.of_returning hs hn q.advance (count + 1)
    ((count + 1) % 16 = 0 ∨ q.advance.distance = 0) false
  rw [State.returnTick_moving h]
  dsimp only
  generalize ((s.setReturn q.advance (count + 1) false).returnWork q.advance.value.toNat (count + 1)).levelsIf
    ((count + 1) % 16 = 0 ∨ q.advance.distance = 0) q.advance.value.toNat = t at moved ⊢
  obtain ⟨halted, slew, halts⟩ := moved.slew
  obtain ⟨node, path⟩ := moved.node
  simp only [Bool.false_eq_true, false_or] at halts
  have returned : t.returned ↔ ∀ a, s.store.axisPlays a = true →
      s.axes[a].commandedAt s.now = s.returnAim q.advance.value.toNat a := by
    simp only [State.returned, moved.store, moved.commandedAt, moved.holds]
  have rests : t.restsEnabled ↔ ∀ a, s.store.axisPlays a = true →
      s.standsOn a (s.returnAim q.advance.value.toNat a) := by
    unfold State.restsEnabled
    rw [moved.store]
    refine forall_congr' fun a => imp_congr_right fun _ => ?_
    rw [moved.standsOn, moved.holds]
  by_cases ends : q.advance.distance = 0 ∧ ¬ s.returnHalts q.advance.value.toNat
  · have unhalted : halted = false := Bool.eq_false_iff.2 (mt halts.1 ends.2)
    rw [if_pos ⟨ends.1, by rw [slew, unhalted]⟩]
    have goes : ¬ (q.advance.distance ≠ 0 ∨ s.returnHalts q.advance.value.toNat) :=
      fun g => g.elim (fun far => far ends.1) ends.2
    rcases t.finishReturn_cases with ⟨done, run⟩ | ⟨undone, rest, run⟩ | ⟨unrest, run⟩ <;> rw [run] <;>
      dsimp only [Option.getD]
    · obtain ⟨kept, either, armed, none, parked, levels⟩ := moved.completed hn ends.2
      generalize t.completeReturn = u at *
      refine ⟨u, rfl, kept, fun due => ?_, fun g => absurd g goes, fun _ _ => ⟨fun _ => ⟨none, either, armed, parked⟩,
        fun un => absurd (returned.1 done) un, fun un => absurd (rests.1 done.rests) un⟩⟩
      unfold State.levelsTaken
      rw [levels]
      exact moved.levels.1 due
    · obtain ⟨kept, ended, none, holds, parked, levels⟩ := moved.rested
      generalize t.restReturn = u at *
      exact ⟨u, rfl, kept, fun _ => levels, fun g => absurd g goes, fun _ _ =>
        ⟨fun done => absurd (returned.2 done) undone, fun _ _ => ⟨ended, none, holds, parked⟩,
          fun un => absurd (rests.1 rest) un⟩⟩
    · exact ⟨t, rfl, moved.toReturnMoved, moved.levels.1, fun g => absurd g goes, fun _ _ =>
        ⟨fun done => absurd (returned.2 done).rests unrest, fun _ rest => absurd (rests.2 rest) unrest,
          fun _ => ⟨node.trans hn, path, moved.holds⟩⟩⟩
  · have unended : ¬ (q.advance.distance = 0 ∧ t.engine.slew = some (.path q.advance (count + 1) false)) := by
      rintro ⟨there, unhalted⟩
      rw [slew] at unhalted
      cases unhalted
      exact ends ⟨there, fun hh => Bool.false_ne_true (halts.2 hh)⟩
    rw [if_neg unended]
    exact ⟨t, rfl, moved.toReturnMoved, moved.levels.1, fun _ => ⟨node.trans hn, path,
      ⟨halted, slew, halts⟩, moved.holds, fun odd far => moved.levels.2 (not_or_intro odd far)⟩,
      fun there unhalted => absurd ⟨there, unhalted⟩ ends⟩

/-- A decelerating return moves, and rests where its velocity is 0 and every enabled axis stands or is held. -/
theorem State.brakeReturn_spec : ∃ u, s.brakeReturnTick q count = u ∧ ReturnMoved q.brake (count + 1) s u ∧
    ((count + 1) % 16 = 0 → s.levelsTaken q.brake.value.toNat u) ∧
    (q.brake.velocity = 0 ∧ (∀ a, s.store.axisPlays a = true →
        s.standsOn a (s.returnAim q.brake.value.toNat a)) →
      u.engine.nodeState = .halted ∧ u.engine.slew = none ∧
      (∀ a : Fin 4, u.engine.holdTargets[a] = s.axes[a].commanded.toInt) ∧
      u.engine.path = { s.engine.path with onPath := true, tPark := q.brake.value.toNat } ∧
      s.levelsTaken q.brake.value.toNat u) ∧
    (¬ (q.brake.velocity = 0 ∧ ∀ a, s.store.axisPlays a = true →
        s.standsOn a (s.returnAim q.brake.value.toNat a)) →
      u.engine.nodeState = .returning ∧ u.engine.path = s.engine.path ∧
      u.engine.slew = some (.path q.brake (count + 1) true) ∧
      (∀ a : Fin 4, u.engine.holdTargets[a] = s.returnAim q.brake.value.toNat a) ∧
      ((count + 1) % 16 ≠ 0 → u.levels = s.levels)) := by
  have moved := ReturnTicked.of_returning hs hn q.brake (count + 1) ((count + 1) % 16 = 0) true
  rw [State.brakeReturnTick_eq]
  dsimp only
  generalize ((s.setReturn q.brake (count + 1) true).returnWork q.brake.value.toNat (count + 1)).levelsIf
    ((count + 1) % 16 = 0) q.brake.value.toNat = t at moved ⊢
  obtain ⟨halted, slew, halts⟩ := moved.slew
  obtain ⟨node, path⟩ := moved.node
  rw [halts.2 (.inl rfl)] at slew
  have rests : t.everyEnabled State.settled = true ↔ ∀ a, s.store.axisPlays a = true →
      s.standsOn a (s.returnAim q.brake.value.toNat a) := by
    rw [State.restsEnabled_iff, State.restsEnabled, moved.store]
    refine forall_congr' fun a => imp_congr_right fun _ => ?_
    rw [moved.standsOn, moved.holds]
  by_cases ends : q.brake.velocity = 0 ∧ t.everyEnabled State.settled = true
  · rw [if_pos ends]
    obtain ⟨kept, ended, none, holds, parked, levels⟩ := moved.rested
    generalize t.restReturn = u at *
    exact ⟨u, rfl, kept, fun _ => levels, fun _ => ⟨ended, none, holds, parked, levels⟩,
      fun un => absurd ⟨ends.1, rests.1 ends.2⟩ un⟩
  · rw [if_neg ends]
    exact ⟨t, rfl, moved.toReturnMoved, moved.levels.1, fun stands => absurd ⟨stands.1, rests.2 stands.2⟩ ends,
      fun _ => ⟨node.trans hn, path, slew, moved.holds, moved.levels.2⟩⟩

end

end Sys2Proof.Machine

open Sys2Proof Sys2Proof.Machine

/-- Settles O43: `State.slewWork` in each node state, after the tick's instant and clock are set. -/
theorem slewTickMovesTheRig : Obligations.SlewTickMovesTheRig := by
  unfold Obligations.SlewTickMovesTheRig
  intro s d clock here toStep holds
  have handed (hd : s.defaults) (hn : s.engine.nodeState.inPass = false) (a : Fin 4) (target : Int) :
      here.handed a target 50000 = s.slewTicked.channelTakes a target 50000 :=
    State.OffPass.handed (s := here) ⟨hn, hd⟩ a target 50000
  have rehanded (hd : s.defaults) (hn : s.engine.nodeState.inPass = false) (a : Fin 4) :
      here.rehanded a = s.slewTicked.standing a s.engine.holdTargets[a] :=
    State.OffPass.rehanded_eq (s := here) ⟨hn, hd⟩ a
  refine ⟨fun hn => ?_, fun hd hn => ?_, fun hd hn => ?_, fun kind tPark scale moved hd hn hs => ?_,
    fun kind tPark scale moved hd hn hs => ?_, fun q count hd hn hs => ?_, fun q count hd hn hs => ?_⟩
  · rw [exec_slewTick, State.slewWork_inPass (s := s.slewTicked) hn]
    rfl
  · have offPass : s.slewTicked.OffPass := ⟨by show s.engine.nodeState.inPass = false; rw [hn]; rfl, hd⟩
    obtain ⟨u, run, same, following, sets⟩ := State.slewWork_stopped_spec offPass hn
    exact ⟨u, by rw [exec_slewTick, run], same, following, sets⟩
  · have outside : s.engine.nodeState.inPass = false := by
      revert hn
      cases s.engine.nodeState <;> decide
    obtain ⟨u, run, keeps, held, axes, following, engine⟩ :=
      State.slewWork_rest_spec (s := s.slewTicked) ⟨outside, hd⟩ hn
    refine ⟨u, by rw [exec_slewTick, run], keeps.now, keeps.slewStart, held, keeps.store, fun a => ?_,
      fun settled placed => following ⟨settled, placed⟩, fun hr => engine ?_⟩
    · rw [rehanded hd outside]
      exact axes a
    · show s.engine.nodeState.unalarmed = true
      revert hr
      cases s.engine.nodeState <;> decide
  · intro still aim there
    have outside : s.engine.nodeState.inPass = false := by rw [hn]; rfl
    have offPass : s.slewTicked.OffPass := ⟨outside, hd⟩
    have tick : exec .slewTick s = .next (s.slewTicked.axisSlewTick kind tPark scale moved) := by
      rw [exec_slewTick, State.slewWork_axes (s := s.slewTicked) hn hs]
      rfl
    have aims (a : Fin 4) : (moved[a].map Quantity.stepTarget).getD s.engine.holdTargets[a] = aim a := by
      show _ = match moved[a] with
        | some q => toStep q
        | none => s.engine.holdTargets[a]
      cases moved[a] <;> rfl
    by_cases hm : DemandsStill moved
    · by_cases arrived : s.slewTicked.arrived moved
      · obtain ⟨u, run, keeps, axes, none, held, jog, parks⟩ :=
          State.axisSlew_completes (s := s.slewTicked) offPass hn hs hm arrived
        exact ⟨u, by rw [tick, run], keeps.now, keeps.slewStart, keeps.store, keeps.commanded, fun h => absurd hm h,
          fun _ _ => ⟨axes, none, fun a => (held a).trans (aims a), jog, parks⟩,
          fun b q _ hq away => absurd (arrived b q hq) away⟩
      · obtain ⟨u, run, keeps, path, levels, axes, rests, goes⟩ :=
          State.axisSlew_rests (s := s.slewTicked) offPass hn hs hm arrived aims
        refine ⟨u, by rw [tick, run], keeps.now, keeps.slewStart, keeps.store, keeps.commanded, fun h => absurd hm h,
          fun _ h => absurd h arrived, fun b q _ _ _ => ⟨fun a => ?_, path, levels, rests, goes⟩⟩
        have rehands := State.OffPass.rehanded_eq (s := there) ⟨outside, hd⟩ a
        have held : there.engine.holdTargets[a] = aim a := by simp [there]
        rw [rehands, held]
        exact axes a
    · obtain ⟨u, run, keeps, node, path, slew, levels, axes⟩ :=
        State.axisSlew_moves (s := s.slewTicked) offPass hn (kind := kind) (tPark := tPark) (scale := scale) hm
      refine ⟨u, by rw [tick, run], keeps.now, keeps.slewStart, keeps.store, keeps.commanded,
        fun _ => ⟨node, path, slew, levels, fun a => ⟨fun q hq => ?_, fun hq => ?_⟩⟩,
        fun hs => absurd hs hm, fun b q hs => absurd hs hm⟩
      · rw [handed hd outside]
        exact (axes a).1 q hq
      · rw [rehanded hd outside]
        exact (axes a).2 hq
  · intro target rests
    have outside : s.engine.nodeState.inPass = false := by rw [hn]; rfl
    have aims (a : Fin 4) : s.slewTicked.aims (changedBy Quantity.brake moved) (moveAll Quantity.brake moved) a =
        target a := by
      cases hq : moved[a] with
      | none =>
        simp only [target, hq]
        exact State.aims_none (by rw [moveAll_getElem, hq]; rfl)
      | some q =>
        have next : (moveAll Quantity.brake moved)[a] = some q.brake := by rw [moveAll_getElem, hq]; rfl
        have same : changedBy Quantity.brake moved a = false ↔ q.brake.value = q.value := by
          rw [changedBy_eq_false, hq]
          simp
        simp only [target, hq]
        rw [State.aims_some next]
        by_cases stays : q.brake.value = q.value
        · rw [if_pos stays, same.2 stays]
          rfl
        · rw [if_neg stays, Bool.eq_true_of_not_eq_false (mt same.1 stays)]
          rfl
    obtain ⟨u, run, keeps, path, levels, axes, rests, goes⟩ :=
      State.brakeSlew_spec (s := s.slewTicked) ⟨outside, hd⟩ hn (kind := kind) (tPark := tPark) (scale := scale) aims
    refine ⟨u, ?_, keeps.slewStart, keeps.store, path, levels, fun a => ?_, rests, goes⟩
    · rw [exec_slewTick, State.slewWork_axes (s := s.slewTicked) hn hs]
      exact congrArg Host.Outcome.next run
    · rw [rehanded hd outside]
      simp only [handed hd outside]
      exact axes a
  · intro plays time evs aim done rests halts
    have outside : s.engine.nodeState.inPass = false := by rw [hn]; rfl
    have offPass : s.slewTicked.OffPass := ⟨outside, hd⟩
    have tick : exec .slewTick s = .next (s.slewTicked.returnTick q count) := by
      rw [exec_slewTick, State.slewWork_path (s := s.slewTicked) hn hs]
      rfl
    by_cases still : q.distance = 0
    · have advanced : q.advance = q := if_pos still
      have aims : aim = fun a => s.engine.holdTargets[a] := funext fun a => if_pos still
      clear_value aim
      subst aims
      obtain ⟨u, run, keeps, completes, stays, goes⟩ :=
        State.returnTick_arrived_spec offPass hn (count := count) still
      have unhalted : ¬ (q.advance.distance ≠ 0 ∨ halts) := by
        rw [advanced]
        exact fun h => h.elim (fun far => far still) fun hh => hh.1 still
      refine ⟨u, by rw [tick, run], keeps.slewStart, keeps.store, keeps.commanded, fun far => absurd still far,
        fun far => absurd still far, fun h => absurd h unhalted, fun _ zero _ => ⟨fun hd => ?_, fun un hr => ?_,
        fun un => ?_⟩⟩
      · obtain ⟨none, axes, levels, either, armed, path⟩ := completes hd
        exact ⟨none, fun _ => ⟨axes, levels⟩, either,
          armed.trans (and_congr_left fun _ => ⟨fun h _ => h, fun h => h still⟩), path⟩
      · obtain ⟨ended, none, held, axes, levels, path⟩ := stays un hr
        have start : q.value.toNat = 0 := advanced ▸ zero
        rw [start] at levels path
        exact ⟨ended, none, held, fun _ => axes, levels, path⟩
      · obtain ⟨node, path, levels, axes, held⟩ := goes un
        refine ⟨node, path, fun _ => ⟨levels, fun a => ?_⟩, fun a => congrArg (·[a]) held⟩
        rw [rehanded hd outside]
        exact axes a
    · have aims : aim = s.slewTicked.returnAim time := funext fun a => if_neg still
      clear_value aim
      subst aims
      obtain ⟨u, run, moved, levels, goes, ends⟩ := State.returnTick_moving_spec offPass hn (count := count) still
      refine ⟨u, by rw [tick, run], moved.slewStart, moved.store, moved.commanded,
        fun _ => ⟨moved.moveTime, State.raisedBy_of_taken moved.taken, fun a => ?_⟩, fun _ => levels, fun far => ?_,
        fun there zero unhalted => ?_⟩
      · simp only [handed hd outside]
        exact moved.axes a
      · obtain ⟨node, path, ⟨halted, slew, iff⟩, held, kept⟩ := goes (far.imp_right And.right)
        exact ⟨node, path, ⟨halted, slew, iff.trans (and_iff_right still).symm⟩, held, kept⟩
      · obtain ⟨completes, stays, waits⟩ := ends there fun hh => unhalted ⟨still, hh⟩
        have zero' : q.advance.value.toNat = 0 := zero
        refine ⟨fun hd => ?_, fun un hr => ?_, fun un => ?_⟩
        · obtain ⟨none, either, armed, path⟩ := completes hd
          exact ⟨none, fun h => absurd h still, either,
            armed.trans (and_iff_right fun h => absurd h still).symm, .inl path⟩
        · obtain ⟨ended, none, held, path⟩ := stays un hr
          have values := levels (.inr there)
          rw [zero'] at path values
          exact ⟨ended, none, held, fun h => absurd h still, values, path⟩
        · obtain ⟨node, path, held⟩ := waits un
          exact ⟨node, path, fun h => absurd h still, held⟩
  · intro time evs aim rests
    have outside : s.engine.nodeState.inPass = false := by rw [hn]; rfl
    obtain ⟨u, run, moved, levels, stays, goes⟩ :=
      State.brakeReturn_spec (s := s.slewTicked) ⟨outside, hd⟩ hn (q := q) (count := count)
    refine ⟨u, ?_, moved.slewStart, moved.store, moved.moveTime, State.raisedBy_of_taken moved.taken, fun a => ?_,
      fun due => due.elim levels fun stands => (stays stands).2.2.2.2, fun odd moves => (goes moves).2.2.2.2 odd,
      fun stands => ?_, fun moves => ?_⟩
    · rw [exec_slewTick, State.slewWork_path (s := s.slewTicked) hn hs]
      exact congrArg Host.Outcome.next run
    · simp only [handed hd outside]
      exact moved.axes a
    · obtain ⟨halted, none, held, path, -⟩ := stays stands
      exact ⟨halted, none, held, path⟩
    · obtain ⟨node, path, slew, held, -⟩ := goes moves
      exact ⟨node, path, slew, held⟩

end
